-- ==== Sys2Proof/Word.lean ====
section
/-! DEFINITION. The part's word types: what the manual treats as bits. -/

namespace Sys2Proof

/-- One byte: a byte of the management link, or of a word of memory. -/
abbrev Byte := BitVec 8

/-- Two bytes: versions, event details and the two-byte link fields. -/
abbrev Half := BitVec 16

/-- A word is 32 bits (00, Terms); addresses and the timebase are 32 bits wide too. -/
abbrev Word := BitVec 32

/-- One mark per byte of a word: byte enables (02 R23) and the byte mask (03, 3.1).
Bit k stands for byte k, bits 8k+7..8k of the word (DESIGN CHOICE, log 12; safe). -/
abbrev Marks := BitVec 4

/-- An entry of the region table (01): 16 of them. -/
abbrev RegionId := Fin 16

/-- A staging buffer's number (03, 3.1): 0 to 15. -/
abbrev BufId := Fin 16

/-- A view's number within its port (05, 5.1): 0 to 3. -/
abbrev ViewIx := Fin 4

/-- A watch's number (07, 7.2): 0 to 7. -/
abbrev WatchIx := Fin 8

end Sys2Proof
end

