-- ==== Sys2Proof/Config.lean ====
section
/-! DEFINITION. What the manual leaves open: the one free value of the model: the order of things that come together. -/

namespace Sys2Proof

/-- Which port's router continues first when several can continue inside one step, and which timer expires first when
several are due in one microsecond. The manual gives no order ("either may be taken first", 07 R131 and elsewhere), so this
constant has no body: a claim holds whatever it is (log 9; safe). The k-th such choice of a run reads `freeChoice k`, reduced
modulo the number of ports or timers to choose from. -/
opaque Config.freeChoice : Nat → Nat

end Sys2Proof
end

