-- ==== Sys2Proof/Syntax.lean ====
section
/-! DEFINITION. The commands of the block: one constructor of `Instr` per row of
spec/opcode_table.json, with the operands the rules give it. -/

namespace Sys2Proof

/-- The three upstream ports (00, Ways Into the Part). -/
inductive Port where
  | u0 | u1 | u2
deriving DecidableEq, Repr

/-- One word of a write: its data and its four byte enables (02 R23, 06 R109). -/
structure WriteWord where
  data    : Word
  enables : Marks
deriving DecidableEq, Repr

/-- A request on an upstream bundle (02, 2.1): READ of a beat count, or WRITE of its beats. -/
inductive Request where
  | read  (address : Word) (beats : Nat)
  | write (address : Word) (beats : List WriteWord)
deriving DecidableEq, Repr

/-- Memory's answer to one word (06 R113): OKAY, with the word's data for a READ word, or FAULT. -/
inductive MemAnswer where
  | okay (data : Word)
  | fault
deriving DecidableEq, Repr

/-- How a run of a frame begins (08 R138): it goes on in the chip-select period already open; chip select falls
and the opener byte completes; or chip select falls and rises again inside the opener byte, so that the frame has no
opener. -/
inductive Opening where
  | goesOn | opener | shortOpener
deriving DecidableEq, Repr

/-- A run of one frame on the management link (08 R138): how it begins, then complete bytes, then a byte cut short after
`cut` bits if chip select rises (`ends`). A frame in one step begins with its opener and ends; a frame cut into several
steps lets other commands land inside it (log 11). A short opener is `cut` bits long and nothing follows it. -/
structure FramePart where
  opens : Opening
  bytes : List Byte
  cut   : Fin 8
  ends  : Bool
deriving DecidableEq, Repr

/-- A whole frame in one step: opener, these complete bytes, rise of chip select. -/
def FramePart.whole (bytes : List Byte) : FramePart := ⟨.opener, bytes, 0, true⟩

/-- A frame that ends after this many bits of its opener byte (08 R138). -/
def FramePart.short (cut : Fin 8) : FramePart := ⟨.shortOpener, [], cut, true⟩

/-- The arrival in whose step a long command completes (01 R8, R12; 02 R41; 08 R153): a period of
the reference, a memory answer, the memory timeout, or none (its conditions stand already). -/
inductive Cause where
  | standing
  | tick
  | answer (tag : Byte) (a : MemAnswer)
  | timeout
deriving DecidableEq, Repr

/-- DEFINE REGION's 21 parameter bytes, field by field (08 R157). -/
structure DefineParams where
  regionIndex   : Byte
  base          : Word
  recordWords   : Byte
  recordCount   : Half
  versionBase   : Half
  writer        : Byte
  readers       : Byte
  closeOffset   : Byte
  releaseOffset : Byte
  versionWord   : Byte
  policy        : Byte
  action        : Byte
  updateLimit   : Half
  viewLifetime  : Half
deriving DecidableEq, Repr

/-- SET WATCH's 15 parameter bytes, field by field (08 R159). -/
structure WatchParams where
  watch     : Byte
  region    : Byte
  record    : Half
  offset    : Byte
  mask      : Word
  reference : Word
  condition : Byte
  mode      : Byte
deriving DecidableEq, Repr

/-- The commands of the block, one per row of spec/opcode_table.json. -/
inductive Instr where
  | hardReset
  | hardResetDeassert (chipSelectLow : Bool)
  | portReset (p : Port)
  | portResetDeassert (p : Port)
  | timebaseTick
  | activateComplete (c : Cause)
  | requestTaken (p : Port) (r : Request)
  | holdLimit (p : Port)
  | updateExpiry (b : BufId)
  | memoryGrant
  | memoryAnswer (tag : Byte) (a : MemAnswer)
  | memoryTimeout
  | commitTake
  | drainComplete (c : Cause)
  | captureRequest
  | viewExpired (p : Port) (v : ViewIx)
  | commandFrame (f : FramePart)
  | resultFrame (f : FramePart)
  | statusFrame (f : FramePart)
  | abandonFrame (f : FramePart)
  | badOpener (opener : Byte) (f : FramePart)
  | identify
  | defineRegion (d : DefineParams)
  | activate (region : Byte)
  | retire (region : Byte) (mode : Byte)
  | readRegion (region : Byte)
  | clearRegion (region : Byte)
  | readRecord (region : Byte) (record : Half)
  | clearTorn (region : Byte) (record : Half)
  | setWatch (w : WatchParams)
  | clearWatch (watch : Byte)
  | readWatch (watch : Byte)
  | readEvents (maximum : Byte)
  | setEventMasks (queueMask : Byte) (attentionMask : Half)
  | flushPort (port : Byte)
  | flushPortComplete (c : Cause)
  | restart
  | restartComplete (c : Cause)
deriving DecidableEq, Repr

/-- How many beats a request names (02 R23). -/
def Request.beats : Request → Nat
  | .read _ n => n
  | .write _ ws => ws.length

/-- The address of a request's beat 0 (02 R23). -/
def Request.address : Request → Word
  | .read a _ => a
  | .write a _ => a

end Sys2Proof
end

