-- ==== Sys2Proof/WellFormed.lean ====
section
/-! DEFINITION. Which commands the part's bundles and link can carry. -/

namespace Sys2Proof

/-- A request the upstream bundle can carry: word addresses, and a beat count of 1 to 8 (02 R23). -/
def Request.wellFormed (r : Request) : Bool :=
  r.address.toNat % 4 == 0 && 1 ≤ r.beats && r.beats ≤ 8

/-- A run of a frame: only a rise of chip select cuts a byte short, and after a rise inside the opener nothing follows (08 R138). -/
def FramePart.wellFormed (f : FramePart) : Bool :=
  (f.ends || f.cut == 0) && (f.opens != .shortOpener || (f.bytes.isEmpty && f.ends))

/-- The four known openers (08 R140). -/
def knownOpeners : List Byte := [0x3C, 0x5A, 0x69, 0x96]

/-- A command that can arrive: its request, its run of a frame and, for BAD_OPENER, an opener
that is none of the four (08 R140). -/
def Instr.wellFormed : Instr → Bool
  | .hardReset => true
  | .hardResetDeassert _ => true
  | .portReset _ => true
  | .portResetDeassert _ => true
  | .timebaseTick => true
  | .activateComplete _ => true
  | .requestTaken _ r => r.wellFormed
  | .holdLimit _ => true
  | .updateExpiry _ => true
  | .memoryGrant => true
  | .memoryAnswer _ _ => true
  | .memoryTimeout => true
  | .commitTake => true
  | .drainComplete _ => true
  | .captureRequest => true
  | .viewExpired _ _ => true
  | .commandFrame f => f.wellFormed
  | .resultFrame f => f.wellFormed
  | .statusFrame f => f.wellFormed
  | .abandonFrame f => f.wellFormed
  | .badOpener o f => f.wellFormed && !knownOpeners.contains o
  | .identify => true
  | .defineRegion _ => true
  | .activate _ => true
  | .retire _ _ => true
  | .readRegion _ => true
  | .clearRegion _ => true
  | .readRecord _ _ => true
  | .clearTorn _ _ => true
  | .setWatch _ => true
  | .clearWatch _ => true
  | .readWatch _ => true
  | .readEvents _ => true
  | .setEventMasks _ _ => true
  | .flushPort _ => true
  | .flushPortComplete _ => true
  | .restart => true
  | .restartComplete _ => true

end Sys2Proof
end

