-- ==== Sys2Proof/Decode.lean ====
section
/-! DEFINITION. The command a table word spells. No row of spec/opcode_table.json gives bits: the
commands are arrivals on lines and bundles, not words, and the link's frames are bytes in time,
read by Machine/Frames.lean. -/

namespace Sys2Proof

/-- The command that `w` spells by the table's bits: none, since no row of the table has bits. -/
def decodeTableWord (_nbits _w : Nat) : Option Instr := none

end Sys2Proof
end

