-- ==== Sys2Proof/Machine/State.lean ====
section
/-! DEFINITION. The state of the part, block by block (00, The Blocks), as plain data; the reasons
a step can stop; and the state after reset. -/

namespace Sys2Proof.Machine

/-! ### Tables of fixed size -/

/-- The cell of a table at an index. -/
def cell {α : Type} {n : Nat} (v : Vector α n) (i : Fin n) : α := v[i.val]

/-- A table with one cell replaced. -/
def put {α : Type} {n : Nat} (v : Vector α n) (i : Fin n) (x : α) : Vector α n := v.set i.val x i.isLt

/-- One value for each upstream port. -/
structure PerPort (α : Type) where
  u0 : α
  u1 : α
  u2 : α
deriving DecidableEq, Repr

/-- The value of one port. -/
def PerPort.get {α : Type} (x : PerPort α) : Port → α
  | .u0 => x.u0
  | .u1 => x.u1
  | .u2 => x.u2

/-- The values with one port's replaced. -/
def PerPort.set {α : Type} (x : PerPort α) (p : Port) (a : α) : PerPort α :=
  match p with
  | .u0 => { x with u0 := a }
  | .u1 => { x with u1 := a }
  | .u2 => { x with u2 := a }

/-! ### Region table and version table (01) -/

/-- The five states of a region-table entry (01, 1.4; R6). -/
inductive RegionState where
  | empty | defined | activating | active | draining
deriving DecidableEq, Repr

/-- The exhaustion policy of a region (01, 1.1). -/
inductive Policy where
  | through | refuse | closeOldest
deriving DecidableEq, Repr

/-- The expiry action of a region (01, 1.1). -/
inductive ExpiryAction where
  | discard | close
deriving DecidableEq, Repr

/-- RETIRE's drain mode (01 R10). -/
inductive DrainMode where
  | abandon | close
deriving DecidableEq, Repr

/-- The torn mark of a record, and the torn indicator of a view (01, 1.8; 05, 5.1). -/
inductive Mark where
  | clean | torn
deriving DecidableEq, Repr

/-- A region definition: the fourteen fields (01, 1.1). `versionWord = none` is NONE. -/
structure Definition where
  regionIndex   : RegionId
  base          : Word
  recordWords   : Nat
  recordCount   : Nat
  versionBase   : Nat
  writer        : Port
  readers       : PerPort Bool
  closeOffset   : Nat
  releaseOffset : Nat
  versionWord   : Option Nat
  policy        : Policy
  action        : ExpiryAction
  updateLimit   : Nat
  viewLifetime  : Nat
deriving DecidableEq, Repr

/-- The field values of an EMPTY entry (01 R13). -/
def Definition.emptyValues : Definition :=
  { regionIndex := 0, base := 0, recordWords := 0, recordCount := 0, versionBase := 0, writer := .u0,
    readers := ⟨false, false, false⟩, closeOffset := 0, releaseOffset := 0, versionWord := none,
    policy := .through, action := .discard, updateLimit := 0, viewLifetime := 0 }

/-- An entry of the region table: its state and its definition fields (01, 1.4). -/
structure Region where
  state      : RegionState
  definition : Definition
deriving DecidableEq, Repr

/-- An EMPTY entry (01 R13, R15). -/
def Region.emptyEntry : Region := ⟨.empty, .emptyValues⟩

/-- An entry of the version table (01, 1.8). -/
structure VersionEntry where
  version : Half
  torn    : Mark
deriving DecidableEq, Repr

/-- Version 0, CLEAN: an entry filled by ACTIVATE or hard reset (01 R8, R22). -/
def VersionEntry.initial : VersionEntry := ⟨0, .clean⟩

/-! ### Upstream ports and router (02) -/

/-- The status of a response, and the outcome of a piece (02, 2.1; R28). -/
inductive Status where
  | okay | torn | refused | fault
deriving DecidableEq, Repr

/-- A response on an upstream bundle (02 R24): a status and, for a READ, one word per beat. -/
structure Response where
  status : Status
  data   : List Word
deriving DecidableEq, Repr

/-- Where a guarded word lies: region, record index and word offset (01 R5). -/
structure Spot where
  region : RegionId
  record : Nat
  offset : Nat
deriving DecidableEq, Repr

/-- Read-own's snapshot (02 R33, R34), kept for the piece's words: its first word's offset, the region's
version word, per word the bytes the snapshot supplies and which they are, the version and torn
mark it read, and the first piece word its memory read covers (log 21). A region retired and even
redefined after the snapshot does not change the piece (R35), so the version word is kept here. -/
structure Snapshot where
  offset      : Nat
  versionWord : Option Nat
  supplied    : List WriteWord
  version     : Half
  torn        : Mark
  firstRead   : Nat
deriving DecidableEq, Repr

/-- What an outstanding piece waits for (02 R28): a plain transaction (a plain piece, a plain read of a
guarded record or a write-through), read-own's memory read, the hold list, the words of a view
(05 R98), or a view to open (05 R88). -/
inductive Wait where
  | memory
  | readOwn (snap : Snapshot)
  | held
  | onView (v : ViewIx)
  | forView
deriving DecidableEq, Repr

/-- The piece in service that has no outcome yet: how many beats it takes, where it lies if it is
guarded, and what it waits for (02 R27, R28). -/
structure Piece where
  beats : Nat
  spot  : Option Spot
  wait  : Wait
deriving DecidableEq, Repr

/-- The router's work on the request in service (02 R27, R28): the first beat not yet in a finished
piece, the finished pieces' outcomes and words in address order, and the outstanding piece. -/
structure Service where
  next     : Nat
  outcomes : List Status
  words    : List Word
  piece    : Option Piece
deriving DecidableEq, Repr

/-- The service of a request that has just entered service (02 R27). -/
def Service.fresh : Service := ⟨0, [], [], none⟩

/-- One upstream port: its queue, head in service (02 R25), the router's work on the head, the level
of its port-reset line (02 R38), and the responses it has returned so far, oldest first (the
model's record of the bundle's output, log 14). -/
structure PortState where
  queue     : List Request
  service   : Service
  resetLine : Bool
  responses : List Response
deriving DecidableEq, Repr

/-! ### Staging pool and update controller (03) -/

/-- The states of a staging buffer (03, 3.1). -/
inductive BufferState where
  | free | gathering | closed | committing
deriving DecidableEq, Repr

/-- A staging buffer (03, 3.1). Its close sequence is its place in the pool's close order (R45). -/
structure Buffer where
  state       : BufferState
  region      : RegionId
  record      : Nat
  writer      : Port
  image       : Vector Word 16
  mask        : Vector Marks 16
  openingTime : Word
  waitCount   : Nat
  preTorn     : Bool
deriving DecidableEq, Repr

/-- A buffer after hard reset (03 R67); the fields R67 does not name are DESIGN CHOICE (log 24) and are
read by no rule while the buffer is FREE. -/
def Buffer.initial : Buffer :=
  { state := .free, region := 0, record := 0, writer := .u0, image := Vector.replicate 16 0,
    mask := Vector.replicate 16 0, openingTime := 0, waitCount := 0, preTorn := false }

/-- A held write (03, 3.5.1): its port, its piece with the version word set aside, and its hold time. -/
structure HeldWrite where
  port     : Port
  spot     : Spot
  words    : List WriteWord
  holdTime : Word
deriving DecidableEq, Repr

/-- The staging pool with the update controller's collections (03 R45). -/
structure Pool where
  buffers    : Vector Buffer 16
  gathering  : PerPort (List BufId)
  closeOrder : List BufId
  holds      : List HeldWrite
deriving DecidableEq, Repr

/-- The pool after hard reset (03 R67, R45). -/
def Pool.initial : Pool := ⟨Vector.replicate 16 .initial, ⟨[], [], []⟩, [], []⟩

/-! ### Commit engine (04) -/

/-- What is recorded of memory's answer to one word: UNANSWERED, OKAY (with the data of a READ word) or
FAULT (04 R68, 05 R94, 06 R113). -/
inductive Answer where
  | unanswered
  | okay (data : Word)
  | fault
deriving DecidableEq, Repr

/-- A commit in flight: the COMMITTING buffer, its burst and the answer record (04 R68, R72). -/
structure CommitJob where
  buffer  : BufId
  first   : Nat
  words   : List WriteWord
  answers : List Answer
deriving DecidableEq, Repr

/-- The commit engine's states (04 R68). -/
inductive CommitEngine where
  | idle
  | requesting (job : CommitJob)
  | writing (job : CommitJob)
deriving DecidableEq, Repr

/-! ### View store and capture engine (05) -/

/-- The states of a view (05, 5.1). -/
inductive ViewState where
  | free | capturing | held
deriving DecidableEq, Repr

/-- A view (05, 5.1). `supplied` marks the bytes whose source is a basis buffer, which R96's copy needs
(log 17). Its port is its place in the view store, its place in the use list is in that list. -/
structure View where
  state        : ViewState
  region       : RegionId
  record       : Nat
  version      : Half
  torn         : Mark
  image        : Vector Word 16
  supplied     : Vector Marks 16
  fill         : Vector Bool 16
  basis        : List BufId
  startTime    : Word
  completeTime : Word
deriving DecidableEq, Repr

/-- A FREE view after hard reset (05 R108); its other fields are DESIGN CHOICE (log 24) and are read
by no rule while it is FREE (R85). -/
def View.initial : View :=
  { state := .free, region := 0, record := 0, version := 0, torn := .clean, image := Vector.replicate 16 0,
    supplied := Vector.replicate 16 0, fill := Vector.replicate 16 false, basis := [], startTime := 0,
    completeTime := 0 }

/-- One port's views and use list, least recently used first (05 R86). -/
structure PortViews where
  views   : Vector View 4
  useList : List ViewIx
deriving DecidableEq, Repr

/-- A port's views after hard reset (05 R108). -/
def PortViews.initial : PortViews := ⟨Vector.replicate 4 .initial, []⟩

/-- Where a capture's read stands (05 R94). -/
inductive CaptureState where
  | queued | requesting | reading
deriving DecidableEq, Repr

/-- A capture in the capture engine (05 R94); `view = none` once its view has been released. -/
structure Capture where
  view    : Option ViewIx
  port    : Port
  region  : RegionId
  record  : Nat
  first   : Nat
  count   : Nat
  holdSet : List BufId
  state   : CaptureState
  answers : List Answer
deriving DecidableEq, Repr

/-! ### Memory port (06) -/

/-- The five requesters of the memory port (06, 6.1). -/
inductive Requester where
  | plain (p : Port)
  | commit
  | capture
deriving DecidableEq, Repr

/-- A transaction as its requester asks for it (06 R109): READ of a word count, or WRITE of its words. -/
inductive MemRequest where
  | read  (address : Word) (count : Nat)
  | write (address : Word) (words : List WriteWord)
deriving DecidableEq, Repr

/-- The outstanding transaction (06, 6.1). -/
structure Transaction where
  requester : Requester
  tag       : Byte
  request   : MemRequest
  grantTime : Word
  answers   : List Answer
  discard   : Bool
deriving DecidableEq, Repr

/-- A transaction as it left on the memory bundle (06 R112): its tag and its request. -/
structure Issued where
  tag     : Byte
  request : MemRequest
deriving DecidableEq, Repr

/-- The memory port (06, 6.1). `outstanding = none` is IDLE, `some` is BUSY. `issued` is the model's
record of the memory bundle's output, in grant order (log 14). -/
structure MemPort where
  ring        : Requester
  plain       : PerPort (Option MemRequest)
  commit      : Option MemRequest
  capture     : Option MemRequest
  outstanding : Option Transaction
  tagCounter  : Byte
  issued      : List Issued
deriving DecidableEq, Repr

/-! ### Event unit (07) -/

/-- The states of a watch (07, 7.2). -/
inductive WatchState where
  | unused | active | spent
deriving DecidableEq, Repr

/-- A watch's condition (07, 7.2). -/
inductive Condition where
  | equal | notEqual | changed
deriving DecidableEq, Repr

/-- Whether a watch stays ACTIVE after a match (07, 7.2). -/
inductive Repeat where
  | once | every
deriving DecidableEq, Repr

/-- A watch (07, 7.2); `record = none` is ANY. -/
structure Watch where
  state     : WatchState
  region    : RegionId
  record    : Option Nat
  offset    : Nat
  mask      : Word
  reference : Word
  condition : Condition
  mode      : Repeat
deriving DecidableEq, Repr

/-- The UNUSED field values (07 R123). -/
def Watch.unusedValues : Watch :=
  { state := .unused, region := 0, record := some 0, offset := 0, mask := 0, reference := 0,
    condition := .equal, mode := .once }

/-- UPDATE_ABANDONED's detail (07, 7.4). -/
inductive AbandonCause where
  | portReset | flush | retire
deriving DecidableEq, Repr

/-- The staging limit STAGING_EXHAUSTED names (03 R52). -/
inductive Limit where
  | pool | port
deriving DecidableEq, Repr

/-- WRITE_REFUSED's detail (07, 7.4). -/
inductive RefusedCause where
  | foreign | holdLimit | retired
deriving DecidableEq, Repr

/-- RECORD_TORN's detail (07, 7.4). -/
inductive TornCause where
  | writeThrough | commitFault
deriving DecidableEq, Repr

/-- An event's kind with its detail (07, 7.4). -/
inductive EventBody where
  | watchMatch (w : WatchIx)
  | updateExpired (a : ExpiryAction)
  | updateAbandoned (c : AbandonCause)
  | stagingExhausted (l : Limit) (a : Policy)
  | writeRefused (c : RefusedCause)
  | recordTorn (c : TornCause)
  | memoryFault (offset : Nat)
  | viewExpired
deriving DecidableEq, Repr

/-- An event of the queue (07, 7.4). -/
structure Event where
  sequence  : Byte
  body      : EventBody
  region    : RegionId
  port      : Port
  record    : Nat
  version   : Half
  timestamp : Word
deriving DecidableEq, Repr

/-- The event unit (00, block 9) but for the timebase. Bit k−1 of a mask is the kind of code k; bit 8
of the attention mask is LOST (08 R159). -/
structure EventUnit where
  watches       : Vector Watch 8
  queue         : List Event
  lost          : Nat
  sequence      : Byte
  queueMask     : BitVec 8
  attentionMask : BitVec 9
  attention     : Bool
deriving DecidableEq, Repr

/-- The event unit after hard reset (07 R137). -/
def EventUnit.initial : EventUnit :=
  { watches := Vector.replicate 8 .unusedValues, queue := [], lost := 0, sequence := 0,
    queueMask := 0x7F, attentionMask := 0, attention := false }

/-! ### Management link (08) -/

/-- A long command that executes, with its counts and completion conditions: ACTIVATE with the entries
filled so far (01 R8); RETIRE with the three drain counts (01 R10); FLUSH PORT with its two
counts and whether a capture it cancelled is still reading (02 R41); RESTART with its four
counts and its two conditions (08 R152). -/
inductive Executing where
  | activate (region : RegionId) (filled : Nat)
  | retire (region : RegionId) (abandoned committed released : Nat)
  | flushPort (abandoned released : Nat) (awaitCapture : Bool)
  | restart (gathering closed released inFlight : Nat) (awaitCommit awaitCapture : Bool)
deriving DecidableEq, Repr

/-- The link states with what each holds (08 R139): RECEIVING the command buffer and the byte count
(R142), EXECUTING the command, RESULT the result and the read position (R146). -/
inductive LinkState where
  | idle
  | receiving (buffer : List Byte) (count : Nat)
  | executing (e : Executing)
  | result (bytes : List Byte) (position : Nat)
deriving DecidableEq, Repr

/-- The last refusal indicator (08 R141). -/
inductive LastRefusal where
  | none | badOpener | busy | resultPending
deriving DecidableEq, Repr

/-- How the frame in progress is treated, fixed at its opener (08 R138, R140). `status` holds what is
left of the record's copy and its check (R148). `noFrame` is a chip-select period already open
when the hard reset line was deasserted (R154). -/
inductive Treatment where
  | receiving
  | delivering
  | status (rest : List Byte)
  | abandoning
  | silent
  | noFrame
deriving DecidableEq, Repr

/-- The link controller (08). `frame = none`: chip select is high. `presented` holds the bits presented
on SPI data out in the current or latest chip-select period, in order (the model's record of
the output, log 14). -/
structure Link where
  state       : LinkState
  lastRefusal : LastRefusal
  frame       : Option Treatment
  presented   : List Bool
deriving DecidableEq, Repr

/-- The link controller after hard reset (08 R154), chip select high (log 1). -/
def Link.initial : Link := ⟨.idle, .none, none, []⟩

/-! ### The whole part -/

/-- The state of the part: every block of 00, the lines, and the queue of waiting commands. -/
structure State where
  pending       : List Instr
  hardResetLine : Bool
  timebase      : Word
  regions       : Vector Region 16
  versions      : Vector VersionEntry 4096
  ports         : PerPort PortState
  pool          : Pool
  engine        : CommitEngine
  views         : PerPort PortViews
  captures      : List Capture
  mem           : MemPort
  events        : EventUnit
  link          : Link
  choices       : Nat
deriving DecidableEq, Repr

/-- Reasons a step stops with a fault: none. The part never stops: FAULT is a status of a response
(02 R24), so this type is empty, and that no step faults holds by its form (log 6; safe). -/
inductive Fault where
deriving DecidableEq, Repr

/-- Reasons a step is refused. -/
inductive Refusal where
  /-- Raised by `exec`'s arm of a command that has no meaning yet; safe. No arm raises it: every command
  of the table has its meaning. -/
  | notModelled (mnemonic : String)
deriving DecidableEq, Repr

/-- A port after hard reset (02 R42), its port-reset line deasserted (log 1). -/
def PortState.initial : PortState := ⟨[], .fresh, false, []⟩

/-- The memory port after hard reset (06 R120) of a part whose tag counter stands at 0 (log 2). -/
def MemPort.initial : MemPort :=
  { ring := .plain .u0, plain := ⟨none, none, none⟩, commit := none, capture := none,
    outstanding := none, tagCounter := 0, issued := [] }

/-- The part right after hard reset (01 R15, R22; 02 R42; 03 R67; 04 R84; 05 R108; 06 R120; 07 R137;
08 R154), its line deasserted, the port-reset lines deasserted and chip select high (log 1), and
nothing waiting. -/
def State.reset : State :=
  { pending := [], hardResetLine := false, timebase := 0, regions := Vector.replicate 16 .emptyEntry,
    versions := Vector.replicate 4096 .initial, ports := ⟨.initial, .initial, .initial⟩,
    pool := .initial, engine := .idle, views := ⟨.initial, .initial, .initial⟩, captures := [],
    mem := .initial, events := .initial, link := .initial, choices := 0 }

end Sys2Proof.Machine
end

