-- ==== Sys2Proof/Machine/Operands.lean ====
section
/-! DEFINITION. Operand forms: bytes and words, the link's byte layouts and codes (08, 8.7), the
check of frames and results (08 R144), and tables read by number. -/

namespace Sys2Proof.Machine

/-! ### Tables read by a number that may lie outside -/

/-- The cell at a number, or a default outside the table. -/
def cellD {α : Type} {n : Nat} (v : Vector α n) (k : Nat) (d : α) : α := if h : k < n then v[k] else d

/-- The table with the cell at a number replaced; unchanged outside the table. -/
def putD {α : Type} {n : Nat} (v : Vector α n) (k : Nat) (x : α) : Vector α n :=
  if h : k < n then v.set k x h else v

/-! ### Bytes of a word -/

/-- The bits of the marked bytes of a word (log 12). -/
def bitsOfMarks (m : Marks) : Word :=
  (if m.getLsbD 3 then 0xFF#8 else 0#8) ++ (if m.getLsbD 2 then 0xFF#8 else 0#8) ++
  (if m.getLsbD 1 then 0xFF#8 else 0#8) ++ (if m.getLsbD 0 then 0xFF#8 else 0#8)

/-- `old` with its marked bytes replaced by those of `new` (03 R47). -/
def mergeWord (old new : Word) (m : Marks) : Word :=
  (old &&& ~~~ bitsOfMarks m) ||| (new &&& bitsOfMarks m)

/-- How many bytes are marked. -/
def countMarks (m : Marks) : Nat :=
  (m.getLsbD 0).toNat + (m.getLsbD 1).toNat + (m.getLsbD 2).toNat + (m.getLsbD 3).toNat

/-- The bytes a bit mask selects: those of which it holds at least one bit (07 R128). -/
def selectedBytes (mask : Word) : Marks :=
  BitVec.ofBool (mask.extractLsb' 24 8 != 0) ++ BitVec.ofBool (mask.extractLsb' 16 8 != 0) ++
  BitVec.ofBool (mask.extractLsb' 8 8 != 0) ++ BitVec.ofBool (mask.extractLsb' 0 8 != 0)

/-- A version in a word: the low 16 bits, the upper 16 zero (02 R34, 04 R73, 05 R98). -/
def versionAsWord (v : Half) : Word := v.setWidth 32

/-! ### Most significant byte first (08 R155) -/

/-- The two bytes of a field. -/
def bytes2 (h : Half) : List Byte := [h.extractLsb' 8 8, h.extractLsb' 0 8]

/-- The four bytes of a field. -/
def bytes4 (w : Word) : List Byte :=
  [w.extractLsb' 24 8, w.extractLsb' 16 8, w.extractLsb' 8 8, w.extractLsb' 0 8]

/-- The field of two bytes. -/
def field2 (a b : Byte) : Half := a ++ b

/-- The field of four bytes. -/
def field4 (a b c d : Byte) : Word := a ++ b ++ c ++ d

/-- A number sent in one byte. -/
def byteOf (n : Nat) : Byte := BitVec.ofNat 8 n

/-- A number sent in two bytes. -/
def halfOf (n : Nat) : Half := BitVec.ofNat 16 n

/-- The bits of a byte, most significant first (08 R138). -/
def bitsOf (b : Byte) : List Bool :=
  [b.getLsbD 7, b.getLsbD 6, b.getLsbD 5, b.getLsbD 4, b.getLsbD 3, b.getLsbD 2, b.getLsbD 1, b.getLsbD 0]

/-! ### CRC-8 (08 R144) -/

/-- One of the eight rounds: shift left by one place and, if the bit shifted out was 1, combine 0x2F. -/
def crcRound (v : Byte) : Byte := if v.msb then (v <<< 1) ^^^ 0x2F#8 else v <<< 1

/-- Combine one byte into the value, then eight rounds. -/
def crcByte (v b : Byte) : Byte :=
  crcRound (crcRound (crcRound (crcRound (crcRound (crcRound (crcRound (crcRound (v ^^^ b))))))))

/-- The check of a run of bytes. -/
def crc8 (bytes : List Byte) : Byte := bytes.foldl crcByte 0xFF#8

/-! ### Codes (08 R155) -/

/-- The completion codes (08 R146). -/
inductive Completion where
  | done | badCode | badCheck | fragment | length | badParam | conflict | wrongState
deriving DecidableEq, Repr

/-- The code of a completion. -/
def codeOfCompletion : Completion → Byte
  | .done => 0x00
  | .badCode => 0x01
  | .badCheck => 0x02
  | .fragment => 0x03
  | .length => 0x04
  | .badParam => 0x05
  | .conflict => 0x06
  | .wrongState => 0x07

/-- The code of a port. -/
def codeOfPort : Port → Byte
  | .u0 => 0x00
  | .u1 => 0x01
  | .u2 => 0x02

/-- The port of a code. -/
def portOfCode (b : Byte) : Option Port :=
  if b = 0x00 then some .u0 else if b = 0x01 then some .u1 else if b = 0x02 then some .u2 else none

/-- The code of a region state. -/
def codeOfRegionState : RegionState → Byte
  | .empty => 0x00
  | .defined => 0x01
  | .activating => 0x02
  | .active => 0x03
  | .draining => 0x04

/-- The code of an exhaustion policy. -/
def codeOfPolicy : Policy → Byte
  | .through => 0x00
  | .refuse => 0x01
  | .closeOldest => 0x02

/-- The exhaustion policy of a code. -/
def policyOfCode (b : Byte) : Option Policy :=
  if b = 0x00 then some .through else if b = 0x01 then some .refuse
  else if b = 0x02 then some .closeOldest else none

/-- The code of an expiry action. -/
def codeOfAction : ExpiryAction → Byte
  | .discard => 0x00
  | .close => 0x01

/-- The expiry action of a code. -/
def actionOfCode (b : Byte) : Option ExpiryAction :=
  if b = 0x00 then some .discard else if b = 0x01 then some .close else none

/-- The drain mode of a code. -/
def modeOfCode (b : Byte) : Option DrainMode :=
  if b = 0x00 then some .abandon else if b = 0x01 then some .close else none

/-- The code of a torn mark. -/
def codeOfMark : Mark → Byte
  | .clean => 0x00
  | .torn => 0x01

/-- The code of a non-FREE buffer's state; a FREE buffer is never sent. -/
def codeOfBufferState : BufferState → Byte
  | .free => 0x00
  | .gathering => 0x01
  | .closed => 0x02
  | .committing => 0x03

/-- The code of a watch state. -/
def codeOfWatchState : WatchState → Byte
  | .unused => 0x00
  | .active => 0x01
  | .spent => 0x02

/-- The code of a condition. -/
def codeOfCondition : Condition → Byte
  | .equal => 0x00
  | .notEqual => 0x01
  | .changed => 0x02

/-- The condition of a code. -/
def conditionOfCode (b : Byte) : Option Condition :=
  if b = 0x00 then some .equal else if b = 0x01 then some .notEqual
  else if b = 0x02 then some .changed else none

/-- The code of a repeat. -/
def codeOfRepeat : Repeat → Byte
  | .once => 0x00
  | .every => 0x01

/-- The repeat of a code. -/
def repeatOfCode (b : Byte) : Option Repeat :=
  if b = 0x00 then some .once else if b = 0x01 then some .every else none

/-- The code of an event's kind. -/
def codeOfKind : EventBody → Byte
  | .watchMatch _ => 0x01
  | .updateExpired _ => 0x02
  | .updateAbandoned _ => 0x03
  | .stagingExhausted _ _ => 0x04
  | .writeRefused _ => 0x05
  | .recordTorn _ => 0x06
  | .memoryFault _ => 0x07
  | .viewExpired => 0x08

/-- The code of a last refusal. -/
def codeOfRefusal : LastRefusal → Byte
  | .none => 0x00
  | .badOpener => 0x01
  | .busy => 0x02
  | .resultPending => 0x03

/-- The code of a link state; RECEIVING has 0x01, which no status record reports (08 R155). -/
def codeOfLinkState : LinkState → Byte
  | .idle => 0x00
  | .receiving _ _ => 0x01
  | .executing _ => 0x02
  | .result _ _ => 0x03

/-- The detail field of an event, encoded by kind (08 R160). -/
def detailOf : EventBody → Half
  | .watchMatch w => halfOf w.val
  | .updateExpired .discard => 0x0000
  | .updateExpired .close => 0x0001
  | .updateAbandoned .portReset => 0x0000
  | .updateAbandoned .flush => 0x0001
  | .updateAbandoned .retire => 0x0002
  | .stagingExhausted .pool a => field2 0x00 (codeOfPolicy a)
  | .stagingExhausted .port a => field2 0x01 (codeOfPolicy a)
  | .writeRefused .foreign => 0x0000
  | .writeRefused .holdLimit => 0x0001
  | .writeRefused .retired => 0x0002
  | .recordTorn .writeThrough => 0x0000
  | .recordTorn .commitFault => 0x0001
  | .memoryFault k => halfOf k
  | .viewExpired => 0x0000

/-- The event record, fourteen bytes (08 R160). -/
def eventBytes (e : Event) : List Byte :=
  [e.sequence, codeOfKind e.body, byteOf e.region.val, codeOfPort e.port] ++
  bytes2 (halfOf e.record) ++ bytes2 e.version ++ bytes2 (detailOf e.body) ++ bytes4 e.timestamp

/-! ### Definitions and watches on the link -/

/-- The reader-set byte: bit 0 U0, bit 1 U1, bit 2 U2 (08 R157). -/
def readersByte (x : PerPort Bool) : Byte :=
  0#5 ++ BitVec.ofBool x.u2 ++ BitVec.ofBool x.u1 ++ BitVec.ofBool x.u0

/-- The reader set of a byte (08 R157). -/
def readersOf (b : Byte) : PerPort Bool := ⟨b.getLsbD 0, b.getLsbD 1, b.getLsbD 2⟩

/-- The 21 bytes of a definition (08 R157), as READ REGION returns them. -/
def definitionBytes (d : Definition) : List Byte :=
  [byteOf d.regionIndex.val] ++ bytes4 d.base ++ [byteOf d.recordWords] ++ bytes2 (halfOf d.recordCount) ++
  bytes2 (halfOf d.versionBase) ++
  [codeOfPort d.writer, readersByte d.readers, byteOf d.closeOffset, byteOf d.releaseOffset,
    (match d.versionWord with | some k => byteOf k | none => 0xFF),
    codeOfPolicy d.policy, codeOfAction d.action] ++
  bytes2 (halfOf d.updateLimit) ++ bytes2 (halfOf d.viewLifetime)

/-- DEFINE REGION's parameter bytes (08 R157). -/
def defineBytes (d : DefineParams) : List Byte :=
  [d.regionIndex] ++ bytes4 d.base ++ [d.recordWords] ++ bytes2 d.recordCount ++ bytes2 d.versionBase ++
  [d.writer, d.readers, d.closeOffset, d.releaseOffset, d.versionWord, d.policy, d.action] ++
  bytes2 d.updateLimit ++ bytes2 d.viewLifetime

/-- SET WATCH's parameter bytes (08 R159). -/
def watchParamBytes (w : WatchParams) : List Byte :=
  [w.watch, w.region] ++ bytes2 w.record ++ [w.offset] ++ bytes4 w.mask ++ bytes4 w.reference ++
  [w.condition, w.mode]

/-- READ WATCH's data: the state, then positions 1 to 14 of SET WATCH's layout (08 R159). -/
def watchBytes (w : Watch) : List Byte :=
  [codeOfWatchState w.state, byteOf w.region.val] ++
  bytes2 (match w.record with | some r => halfOf r | none => 0xFFFF) ++ [byteOf w.offset] ++
  bytes4 w.mask ++ bytes4 w.reference ++ [codeOfCondition w.condition, codeOfRepeat w.mode]

/-- The region a region byte names, if it lies in 0–15 (01 R1, step 1). -/
def regionOfByte (b : Byte) : Option RegionId :=
  if h : b.toNat < 16 then some ⟨b.toNat, h⟩ else none

/-- The watch a byte names, if it lies in 0–7 (07 R124, step 1). -/
def watchOfByte (b : Byte) : Option WatchIx :=
  if h : b.toNat < 8 then some ⟨b.toNat, h⟩ else none

/-- The definition a DEFINE REGION carries, once its checks have passed (01 R3). -/
def definitionOf (d : DefineParams) (r : RegionId) : Definition :=
  { regionIndex := r, base := d.base, recordWords := d.recordWords.toNat, recordCount := d.recordCount.toNat,
    versionBase := d.versionBase.toNat, writer := (portOfCode d.writer).getD .u0, readers := readersOf d.readers,
    closeOffset := d.closeOffset.toNat, releaseOffset := d.releaseOffset.toNat,
    versionWord := if d.versionWord = 0xFF then none else some d.versionWord.toNat,
    policy := (policyOfCode d.policy).getD .through, action := (actionOfCode d.action).getD .discard,
    updateLimit := d.updateLimit.toNat, viewLifetime := d.viewLifetime.toNat }

/-- The checks of DEFINE REGION's step 3, in R2's order (01 R2, R4; 08 R157). -/
def legalDefinition (d : DefineParams) : Bool :=
  d.base.toNat % 4 == 0 &&
  (d.recordWords.toNat != 0 && d.recordWords.toNat ≤ 16) &&
  (d.recordCount.toNat != 0 && d.recordCount.toNat ≤ 4096) &&
  (d.versionBase.toNat ≤ 4095 && d.versionBase.toNat + d.recordCount.toNat ≤ 4096) &&
  (portOfCode d.writer).isSome &&
  d.readers.toNat < 8 &&
  !((readersOf d.readers).get ((portOfCode d.writer).getD .u0)) &&
  (d.closeOffset.toNat < d.recordWords.toNat && d.releaseOffset.toNat < d.recordWords.toNat) &&
  (d.versionWord == 0xFF || d.versionWord.toNat < d.recordWords.toNat) &&
  d.versionWord != d.closeOffset &&
  ((policyOfCode d.policy).isSome && (actionOfCode d.action).isSome) &&
  d.base.toNat + 4 * d.recordWords.toNat * d.recordCount.toNat ≤ 2 ^ 32

/-! ### Times and runs -/

/-- A timer is due in the microsecond in which the timebase, less the start time modulo 2^32, equals its limit (07 R122; log 7). -/
def due (now start : Word) (limit : Nat) : Bool := (now - start).toNat == limit

/-- The hold limit, in µs (03 R57). -/
def holdLimitMicros : Nat := 500

/-- The memory timeout, in µs (06 R114). -/
def memoryTimeoutMicros : Nat := 64

/-- `n` numbers from `k` on. -/
def run (k n : Nat) : List Nat := List.range' k n

end Sys2Proof.Machine
end

