-- ==== Sys2Proof/Machine/Flags.lean ====
section
/-! DEFINITION. Marks, masks and lines: coverage, the torn mark, the status of a response, and the
attention line. -/

namespace Sys2Proof.Machine

/-- The rank of a status; FAULT is highest (02 R37). -/
def Status.rank : Status → Nat
  | .okay => 0
  | .torn => 1
  | .refused => 2
  | .fault => 3

/-- The higher of two statuses (02 R37). -/
def Status.worse (a b : Status) : Status := if a.rank ≤ b.rank then b else a

/-- The status of a response: the highest of its pieces' outcomes (02 R37). -/
def worst (outcomes : List Status) : Status := outcomes.foldl Status.worse .okay

/-- The mask covers the record: it holds every byte of every word other than the version word (03 R44). -/
def covers (d : Definition) (mask : Vector Marks 16) : Bool :=
  (run 0 d.recordWords).all fun k => d.versionWord == some k || cellD mask k 0 == 0xF

/-- How many bytes a byte mask holds (01 R21). -/
def bytesStaged (mask : Vector Marks 16) : Nat :=
  mask.toList.foldl (fun n m => n + countMarks m) 0

/-- An answer is FAULT. -/
def Answer.isFault : Answer → Bool
  | .fault => true
  | .okay _ => false
  | .unanswered => false

/-- An answer is OKAY. -/
def Answer.isOkay : Answer → Bool
  | .okay _ => true
  | .fault => false
  | .unanswered => false

/-- The word an answer delivers: its data when OKAY, else 0x00000000 (02 R24, R29). -/
def Answer.word : Answer → Word
  | .okay w => w
  | .fault => 0
  | .unanswered => 0

/-- The torn mark after a commit completion (01 R18, 04 R76). -/
def markAfterCommit (faulted covering preTorn : Bool) (before : Mark) : Mark :=
  if faulted then .torn else if covering && !preTorn then .clean else before

/-- The torn indicator of an opening view (05 R90): CLEAN when a basis buffer covers the record and is not
pre-torn, else the record's mark. -/
def indicatorOf (d : Definition) (basis : List Buffer) (mark : Mark) : Mark :=
  if basis.any fun b => covers d b.mask && !b.preTorn then .clean else mark

/-- The outcome a torn mark or indicator gives a piece (02 R34, 05 R98). -/
def statusOfMark : Mark → Status
  | .clean => .okay
  | .torn => .torn

/-- The bit of an event's kind in the masks: code − 1 (08 R159). -/
def kindBit (b : EventBody) : Nat := (codeOfKind b).toNat - 1

/-- The attention line as R134 gives it from the queue, the lost count and the attention mask. -/
def attentionOf (e : EventUnit) : Bool :=
  e.queue.any (fun ev => e.attentionMask.getLsbD (kindBit ev.body)) ||
  (e.lost != 0 && e.attentionMask.getLsbD 8)

/-- The event unit with its line re-evaluated (07 R134). -/
def EventUnit.reevaluate (e : EventUnit) : EventUnit := { e with attention := attentionOf e }

/-- Posting one event (07 R130): dropped by the queue mask, appended with a sequence number, or lost
and counted; the line is re-evaluated when the queue or the lost count changes (R134). -/
def EventUnit.post (e : EventUnit) (now : Word) (body : EventBody) (region : RegionId) (port : Port)
    (record : Nat) (version : Half) : EventUnit :=
  if !e.queueMask.getLsbD (kindBit body) then e
  else if e.queue.length < 32 then
    EventUnit.reevaluate { e with
      queue := e.queue ++ [Event.mk e.sequence body region port record version now]
      sequence := e.sequence + 1 }
  else
    EventUnit.reevaluate { e with
      lost := if e.lost < 255 then e.lost + 1 else 255
      sequence := e.sequence + 1 }

/-- The committed word counts as written in every byte the mask selects: the enable was on and the
word was answered OKAY (07 R128). A mask of zeros selects no byte. -/
def selectedWritten (mask : Word) (w : WriteWord) (a : Answer) : Bool :=
  selectedBytes mask == 0 || (a.isOkay && (selectedBytes mask &&& ~~~ w.enables) == 0)

/-- A watch's comparison under its mask (07 R129). -/
def Watch.matches (w : Watch) (data : Word) : Bool :=
  match w.condition with
  | .equal => (data &&& w.mask) == (w.reference &&& w.mask)
  | .notEqual => (data &&& w.mask) != (w.reference &&& w.mask)
  | .changed => (data &&& w.mask) != (w.reference &&& w.mask)

/-- What a match makes of a watch (07 R129): CHANGED takes the committed bits into its reference, and
ONCE goes to SPENT. -/
def Watch.afterMatch (w : Watch) (data : Word) : Watch :=
  { w with
    reference := match w.condition with
      | .changed => (w.reference &&& ~~~ w.mask) ||| (data &&& w.mask)
      | .equal => w.reference
      | .notEqual => w.reference
    state := match w.mode with
      | .once => .spent
      | .every => w.state }

end Sys2Proof.Machine
end

