-- ==== Sys2Proof/Machine/Ops.lean ====
section
/-! DEFINITION. Named operations over the blocks' tables and registers: every read and write of a block
goes through one of these. -/

namespace Sys2Proof.Machine

/-! ### One writer per field of the state -/

/-- Write the region table. -/
def State.setRegions (s : State) (x : Vector Region 16) : State := { s with regions := x }

/-- Write the version table. -/
def State.setVersions (s : State) (x : Vector VersionEntry 4096) : State := { s with versions := x }

/-- Write one upstream port. -/
def State.setPort (s : State) (p : Port) (x : PortState) : State := { s with ports := s.ports.set p x }

/-- Write the staging pool. -/
def State.setPool (s : State) (x : Pool) : State := { s with pool := x }

/-- Write the commit engine. -/
def State.setEngine (s : State) (x : CommitEngine) : State := { s with engine := x }

/-- Write one port's views. -/
def State.setViews (s : State) (p : Port) (x : PortViews) : State := { s with views := s.views.set p x }

/-- Write the capture engine's queue. -/
def State.setCaptures (s : State) (x : List Capture) : State := { s with captures := x }

/-- Write the memory port. -/
def State.setMem (s : State) (x : MemPort) : State := { s with mem := x }

/-- Write the event unit. -/
def State.setEvents (s : State) (x : EventUnit) : State := { s with events := x }

/-- Write the link controller. -/
def State.setLink (s : State) (x : Link) : State := { s with link := x }

/-- Write the timebase. -/
def State.setTimebase (s : State) (x : Word) : State := { s with timebase := x }

/-- Write the level of the hard reset line. -/
def State.setHardResetLine (s : State) (x : Bool) : State := { s with hardResetLine := x }

/-- Write the model's counter of free choices. -/
def State.setChoices (s : State) (x : Nat) : State := { s with choices := x }

/-! ### Lists of all numbers -/

/-- The three ports, in order. -/
def allPorts : List Port := [.u0, .u1, .u2]

/-- The region numbers, in order. -/
def allRegions : List RegionId := [0, 1, 2, 3, 4, 5, 6, 7, 8, 9, 10, 11, 12, 13, 14, 15]

/-- The buffer numbers, in order. -/
def allBuffers : List BufId := [0, 1, 2, 3, 4, 5, 6, 7, 8, 9, 10, 11, 12, 13, 14, 15]

/-- The view numbers of a port, in order. -/
def allViews : List ViewIx := [0, 1, 2, 3]

/-- The watch numbers, in order. -/
def allWatches : List WatchIx := [0, 1, 2, 3, 4, 5, 6, 7]

/-! ### Region table (01) -/

/-- An entry of the region table. -/
def State.region (s : State) (r : RegionId) : Region := cell s.regions r

/-- The definition of a region. -/
def State.definition (s : State) (r : RegionId) : Definition := (s.region r).definition

/-- Write an entry of the region table. -/
def State.setRegion (s : State) (r : RegionId) (x : Region) : State := s.setRegions (put s.regions r x)

/-- Move a region to a state, its definition as it stands. -/
def State.setRegionState (s : State) (r : RegionId) (st : RegionState) : State :=
  s.setRegion r { s.region r with state := st }

/-- The number of bytes of a region's span (01 R4). -/
def spanBytes (d : Definition) : Nat := 4 * d.recordWords * d.recordCount

/-- An address lies in the span (01 R4, R5). -/
def inSpan (d : Definition) (a : Word) : Bool :=
  d.base.toNat ≤ a.toNat && a.toNat < d.base.toNat + spanBytes d

/-- Record index and word offset of an address of the span (01 R5). -/
def locate (r : RegionId) (d : Definition) (a : Word) : Spot :=
  { region := r
    record := (a.toNat - d.base.toNat) / (4 * d.recordWords)
    offset := ((a.toNat - d.base.toNat) / 4) % d.recordWords }

/-- Where a word is guarded: the ACTIVE region in whose span it lies (01 R6), if any. -/
def State.spotOf (s : State) (a : Word) : Option Spot :=
  allRegions.findSome? fun r =>
    if (s.region r).state = .active ∧ inSpan (s.definition r) a then some (locate r (s.definition r) a) else none

/-- The address of a word of a record (04 R72, 05 R91). -/
def addressOf (d : Definition) (record offset : Nat) : Word :=
  d.base + BitVec.ofNat 32 (4 * (d.recordWords * record + offset))

/-- Two ranges of numbers, given by first and length, share a number (01 R7). -/
def rangesMeet (a n b m : Nat) : Bool := a < b + m && b < a + n && n != 0 && m != 0

/-- Two definitions overlap in span or in version range (01 R7). -/
def overlaps (d e : Definition) : Bool :=
  rangesMeet d.base.toNat (spanBytes d) e.base.toNat (spanBytes e) ||
  rangesMeet d.versionBase d.recordCount e.versionBase e.recordCount

/-! ### Version table (01, 1.8) -/

/-- The entry of a record: version base + record index (01 R16). -/
def State.entry (s : State) (r : RegionId) (record : Nat) : VersionEntry :=
  cellD s.versions ((s.definition r).versionBase + record) .initial

/-- Write a record's entry. -/
def State.setEntry (s : State) (r : RegionId) (record : Nat) (e : VersionEntry) : State :=
  s.setVersions (putD s.versions ((s.definition r).versionBase + record) e)

/-- A record's version as it stands. -/
def State.version (s : State) (r : RegionId) (record : Nat) : Half := (s.entry r record).version

/-! ### Events (07) -/

/-- Post one event with the timebase as its timestamp (07 R130). -/
def State.post (s : State) (body : EventBody) (r : RegionId) (p : Port) (record : Nat) (version : Half) : State :=
  s.setEvents (s.events.post s.timebase body r p record version)

/-! ### Staging pool (03) -/

/-- A staging buffer. -/
def State.buffer (s : State) (b : BufId) : Buffer := cell s.pool.buffers b

/-- Write a staging buffer. -/
def State.setBuffer (s : State) (b : BufId) (x : Buffer) : State :=
  s.setPool { s.pool with buffers := put s.pool.buffers b x }

/-- A buffer holds an update of the record (03 R43, 05 R89): it is non-FREE and names it. -/
def Buffer.ofRecord (x : Buffer) (r : RegionId) (record : Nat) : Bool :=
  x.state != .free && x.region == r && x.record == record

/-- The record's GATHERING buffer, if it has one (03 R46). -/
def State.gatheringOf (s : State) (r : RegionId) (record : Nat) : Option BufId :=
  allBuffers.find? fun b => (s.buffer b).state = .gathering && (s.buffer b).ofRecord r record

/-- The CLOSED and COMMITTING buffers of a record, in close order (05 R89). -/
def State.basisOf (s : State) (r : RegionId) (record : Nat) : List BufId :=
  s.pool.closeOrder.filter fun b => (s.buffer b).ofRecord r record

/-- The FREE buffer of lowest number, if there is one (03 R48). -/
def State.freeBuffer (s : State) : Option BufId := allBuffers.find? fun b => (s.buffer b).state = .free

/-- The region has no non-FREE staging buffer (01 R12). -/
def State.regionIdle (s : State) (r : RegionId) : Bool :=
  allBuffers.all fun b => (s.buffer b).state = .free || (s.buffer b).region != r

/-- Both staging limits permit an opening by the port (03 R48): fewer than 16 buffers are non-FREE,
that is, some buffer is FREE, and the port holds fewer than 4 GATHERING buffers. -/
def State.canOpen (s : State) (p : Port) : Bool :=
  s.freeBuffer.isSome && (s.pool.gathering.get p).length < 4

/-- Make every non-FREE buffer of a record pre-torn, but those `except` names (03 R53, R62; 04 R77). -/
def State.makePreTorn (s : State) (r : RegionId) (record : Nat) (except : Option BufId) : State :=
  allBuffers.foldl (fun s b =>
    if (s.buffer b).ofRecord r record && except != some b then s.setBuffer b { s.buffer b with preTorn := true }
    else s) s

/-! ### Views (05) -/

/-- A view of a port. -/
def State.view (s : State) (p : Port) (v : ViewIx) : View := cell (s.views.get p).views v

/-- Write a view of a port. -/
def State.setView (s : State) (p : Port) (v : ViewIx) (x : View) : State :=
  s.setViews p { s.views.get p with views := put (s.views.get p).views v x }

/-- Write a port's use list. -/
def State.setUseList (s : State) (p : Port) (l : List ViewIx) : State :=
  s.setViews p { s.views.get p with useList := l }

/-- A view holds the record: it is non-FREE and names it (05 R87). -/
def View.ofRecord (x : View) (r : RegionId) (record : Nat) : Bool :=
  x.state != .free && x.region == r && x.record == record

/-- The port's non-FREE view of a record, if it has one (05 R87). -/
def State.viewOf (s : State) (p : Port) (r : RegionId) (record : Nat) : Option ViewIx :=
  allViews.find? fun v => (s.view p v).ofRecord r record

/-! ### Ports and router (02) -/

/-- One upstream port. -/
def State.port (s : State) (p : Port) : PortState := s.ports.get p

/-- Write the router's work on a port's head request. -/
def State.setService (s : State) (p : Port) (x : Service) : State :=
  s.setPort p { s.port p with service := x }

/-- Make a piece outstanding: its path owns it until it has its outcome (02 R28). -/
def State.awaitPiece (s : State) (p : Port) (beats : Nat) (spot : Option Spot) (w : Wait) : State :=
  s.setService p { (s.port p).service with piece := some ⟨beats, spot, w⟩ }

/-- Record a piece's outcome and the words it delivered (02 R28); the next piece's turn follows. -/
def State.finishPiece (s : State) (p : Port) (beats : Nat) (st : Status) (words : List Word) : State :=
  s.setService p
    { next := (s.port p).service.next + beats
      outcomes := (s.port p).service.outcomes ++ [st]
      words := (s.port p).service.words ++ words
      piece := none }

/-- Give the outstanding piece back to the router, which forms and classifies it again (02 R36). -/
def State.giveBack (s : State) (p : Port) : State :=
  s.setService p { (s.port p).service with piece := none }

/-! ### Requests at the memory port (06) -/

/-- Place or withdraw the request of a port's plain requester (06 R109, R118). -/
def State.setPlainRequest (s : State) (p : Port) (q : Option MemRequest) : State :=
  s.setMem { s.mem with plain := s.mem.plain.set p q }

/-- Place or withdraw the commit engine's request (06 R109). -/
def State.setCommitRequest (s : State) (q : Option MemRequest) : State := s.setMem { s.mem with commit := q }

/-- Place or withdraw the capture engine's request (06 R109, R119). -/
def State.setCaptureRequest (s : State) (q : Option MemRequest) : State := s.setMem { s.mem with capture := q }

/-- What a requester has asked for and not yet been granted (06, 6.1). -/
def MemPort.pendingOf (m : MemPort) : Requester → Option MemRequest
  | .plain p => m.plain.get p
  | .commit => m.commit
  | .capture => m.capture

/-- The requester's pending request becomes none (06 R111). -/
def MemPort.clearPending (m : MemPort) : Requester → MemPort
  | .plain p => { m with plain := m.plain.set p none }
  | .commit => { m with commit := none }
  | .capture => { m with capture := none }

/-- How many words a transaction names. -/
def MemRequest.count : MemRequest → Nat
  | .read _ n => n
  | .write _ ws => ws.length

/-- A transaction's address. -/
def MemRequest.address : MemRequest → Word
  | .read a _ => a
  | .write a _ => a

/-- Record an answer at the first word still UNANSWERED (06 R113). -/
def answerFirst : List Answer → Answer → List Answer
  | [], _ => []
  | .unanswered :: as, a => a :: as
  | .okay w :: as, a => .okay w :: answerFirst as a
  | .fault :: as, a => .fault :: answerFirst as a

/-- Record FAULT for each word still UNANSWERED (06 R114). -/
def closeUnanswered (as : List Answer) : List Answer :=
  as.map fun a => match a with
    | .unanswered => .fault
    | .okay w => .okay w
    | .fault => .fault

/-- No word is UNANSWERED. -/
def allAnswered (as : List Answer) : Bool := as.all fun a => a != .unanswered

end Sys2Proof.Machine
end

