-- ==== Sys2Proof/Machine/Staging.lean ====
section
/-! DEFINITION. The update controller (03): staging, opening, closing, the limits, held writes and
abandonment. -/

namespace Sys2Proof.Machine

/-- The words of a piece with the version word's byte enables off (03 R46, R53). -/
def setAside (versionWord : Option Nat) : Nat → List WriteWord → List WriteWord
  | _, [] => []
  | k, w :: ws => (if versionWord = some k then { w with enables := 0 } else w) :: setAside versionWord (k + 1) ws

/-- Some word has an enabled byte (03 R46). -/
def anyEnabled (ws : List WriteWord) : Bool := ws.any fun w => w.enables != 0

/-- The word at offset `k` is among the words, the first of which lies at `off`, with an enabled byte (03 R49). -/
def enabledAt (k off : Nat) (ws : List WriteWord) : Bool :=
  off ≤ k && match ws[k - off]? with
    | some w => w.enables != 0
    | none => false

/-- Stage the enabled bytes of one word at an offset (03 R47). -/
def stageWord (x : Buffer) (k : Nat) (w : WriteWord) : Buffer :=
  { x with
    image := putD x.image k (mergeWord (cellD x.image k 0) w.data w.enables)
    mask := putD x.mask k (cellD x.mask k 0 ||| w.enables) }

/-- Stage the words of a piece from an offset on (03 R47). -/
def stageWords (x : Buffer) : Nat → List WriteWord → Buffer
  | _, [] => x
  | k, w :: ws => stageWords (stageWord x k w) (k + 1) ws

/-- A capture in flight reads the record (03 R50): every capture the engine holds is in flight (05 R94). -/
def Capture.ofRecord (c : Capture) (r : RegionId) (record : Nat) : Bool :=
  c.region == r && c.record == record

/-- Close a buffer (03 R49, R50): CLOSED, out of its port's gathering list, its wait count the
in-flight captures of its record, each of which takes it into its hold set, and last in the close order. -/
def State.closeBuffer (s : State) (b : BufId) : State :=
  let x := s.buffer b
  let waits := s.captures.filter fun c => c.ofRecord x.region x.record
  (s.setPool
    { s.pool with
      buffers := put s.pool.buffers b { x with state := .closed, waitCount := waits.length }
      gathering := s.pool.gathering.set x.writer ((s.pool.gathering.get x.writer).erase b)
      closeOrder := s.pool.closeOrder ++ [b] }).setCaptures
    (s.captures.map fun c => if c.ofRecord x.region x.record then { c with holdSet := c.holdSet ++ [b] } else c)

/-- A piece's words include the record's close word with an enabled byte (03 R49). -/
def State.closes (s : State) (spot : Spot) (ws : List WriteWord) : Bool :=
  enabledAt (s.definition spot.region).closeOffset spot.offset ws

/-- Stage a piece in the record's GATHERING buffer and close it if an enabled byte of the close word is
among its words (03 R47, R49). -/
def State.stageIn (s : State) (b : BufId) (spot : Spot) (ws : List WriteWord) : State :=
  let t := s.setBuffer b (stageWords (s.buffer b) spot.offset ws)
  if s.closes spot ws then t.closeBuffer b else t

/-- Open the FREE buffer of lowest number for a record (03 R43, R48). -/
def State.openBuffer (s : State) (p : Port) (spot : Spot) (b : BufId) : State :=
  s.setPool
    { s.pool with
      buffers := put s.pool.buffers b
        { state := .gathering, region := spot.region, record := spot.record, writer := p,
          image := Vector.replicate 16 0, mask := Vector.replicate 16 0, openingTime := s.timebase,
          waitCount := 0, preTorn := false }
      gathering := s.pool.gathering.set p (s.pool.gathering.get p ++ [b]) }

/-- Open an update and stage its first piece (03 R48). -/
def State.openUpdate (s : State) (p : Port) (spot : Spot) (ws : List WriteWord) : State :=
  match s.freeBuffer with
  | none => s
  | some b => (s.openBuffer p spot b).stageIn b spot ws

/-- Examine one held write (03 R56): if both limits permit it leaves the hold list and opens. -/
def State.examineHold (s : State) (h : HeldWrite) : State :=
  if s.canOpen h.port then
    ((s.setPool { s.pool with holds := s.pool.holds.erase h }).openUpdate h.port h.spot h.words).finishPiece
      h.port h.words.length .okay []
  else s

/-- Examine the held writes in hold-list order (03 R56; log 23). -/
def State.examineHolds (s : State) : State := s.pool.holds.foldl State.examineHold s

/-- Examine the held writes if a buffer has left GATHERING (03 R56). -/
def State.examineIf (s : State) (left : Bool) : State := if left then s.examineHolds else s

/-- The GATHERING buffer goes to FREE and leaves its port's gathering list (03 R60, R63). -/
def State.freeGathering (s : State) (b : BufId) : State :=
  let x := s.buffer b
  s.setPool
    { s.pool with
      buffers := put s.pool.buffers b { x with state := .free }
      gathering := s.pool.gathering.set x.writer ((s.pool.gathering.get x.writer).erase b) }

/-- Abandon a GATHERING buffer and post UPDATE_ABANDONED (03 R63, R64, R65). -/
def State.abandonBuffer (s : State) (cause : AbandonCause) (b : BufId) : State :=
  let x := s.buffer b
  (s.freeGathering b).post (.updateAbandoned cause) x.region x.writer x.record (s.version x.region x.record)

/-- End a held write REFUSED and post WRITE_REFUSED (03 R57, R58). -/
def State.refuseHold (s : State) (cause : RefusedCause) (h : HeldWrite) : State :=
  ((s.setPool { s.pool with holds := s.pool.holds.erase h }).post (.writeRefused cause) h.spot.region h.port
    h.spot.record (s.version h.spot.region h.spot.record)).finishPiece h.port h.words.length .refused []

/-- The write-through's marks (03 R53): the record goes TORN, its non-FREE buffers pre-torn, and RECORD_TORN
is posted. -/
def State.tearThrough (s : State) (p : Port) (spot : Spot) : State :=
  ((s.setEntry spot.region spot.record { s.entry spot.region spot.record with torn := .torn }).makePreTorn
    spot.region spot.record none).post (.recordTorn .writeThrough) spot.region p spot.record
    (s.version spot.region spot.record)

/-- CLOSE_OLDEST's early close (03 R55): the port's oldest GATHERING buffer, of whichever region, closes as a
partial update. -/
def State.earlyClose (s : State) (p : Port) : State :=
  match s.pool.gathering.get p with
  | [] => s
  | b :: _ => s.closeBuffer b

/-- The exhaustion policy of the piece's region applied to a piece that may not open (03 R52 to R55). `ws` are
the piece's words with the version word set aside; `address` is that of its first word. -/
def State.exhausted (s : State) (p : Port) (spot : Spot) (address : Word) (ws : List WriteWord) : State :=
  let policy := (s.definition spot.region).policy
  let limit : Limit := if s.freeBuffer.isNone then .pool else .port
  let s := s.post (.stagingExhausted limit policy) spot.region p spot.record (s.version spot.region spot.record)
  match policy with
  | .through =>
    ((s.tearThrough p spot).setPlainRequest p (some (.write address ws))).awaitPiece p ws.length (some spot) .memory
  | .refuse => s.finishPiece p ws.length .refused []
  | .closeOldest =>
    let s := s.earlyClose p
    let s := s.setPool { s.pool with holds := s.pool.holds ++ [⟨p, spot, ws, s.timebase⟩] }
    (s.awaitPiece p ws.length (some spot) .held).examineHolds

/-- The update controller takes a write piece of a writer port (03 R46 to R49); where it closes its update the held writes are examined
before the port's next piece is formed (DESIGN CHOICE, log 30; unsafe). -/
def State.stagePiece (s : State) (p : Port) (spot : Spot) (address : Word) (words : List WriteWord) : State :=
  let ws := setAside (s.definition spot.region).versionWord spot.offset words
  if !anyEnabled ws then s.finishPiece p ws.length .okay []
  else match s.gatheringOf spot.region spot.record with
    | some b => ((s.stageIn b spot ws).finishPiece p ws.length .okay []).examineIf (s.closes spot ws)
    | none =>
      if s.canOpen p then ((s.openUpdate p spot ws).finishPiece p ws.length .okay []).examineIf (s.closes spot ws)
      else s.exhausted p spot address ws

end Sys2Proof.Machine
end

