-- ==== Sys2Proof/Machine/ReadViews.lean ====
section
/-! DEFINITION. Read-own (02, 2.7), and the view store and capture engine (05): bases, openings, serving,
releases and the ends of captures. -/

namespace Sys2Proof.Machine

/-! ### Bytes supplied by buffers -/

/-- One word's bytes as a list of buffers supplies them, later buffers over earlier ones: the data and which
bytes are supplied (02 R33, 05 R89). -/
def overlay (bufs : List Buffer) (k : Nat) : WriteWord :=
  bufs.foldl (fun acc x =>
    { data := mergeWord acc.data (cellD x.image k 0) (cellD x.mask k 0), enables := acc.enables ||| cellD x.mask k 0 })
    ⟨0, 0⟩

/-! ### Read-own (02, 2.7) -/

/-- The numbers among `k, k+1, …` at which a list of words is not wholly supplied, the version word left out
(02 R34): the words of a read-own piece that have a byte to come from memory. -/
def uncovered (versionWord : Option Nat) (k : Nat) (ws : List WriteWord) : List Nat :=
  (run 0 ws.length).filter fun i => versionWord != some (k + i) &&
    (match ws[i]? with | some w => w.enables != 0xF | none => false)

/-- Read-own's assembly of one word (02 R34): the version word is the snapshot's version; every other byte is the
snapshot's if it supplies it, else memory's, 0x00 where memory's word is not OKAY. -/
def ownWord (versionWord : Option Nat) (version : Half) (k : Nat) (w : WriteWord) (memory : Word) : Word :=
  if versionWord = some k then versionAsWord version else mergeWord memory w.data w.enables

/-- Read-own's assembly of its piece from the snapshot and the answers of its memory read (02 R34); with no
read there are no answers. -/
def ownWords (snap : Snapshot) (answers : List Answer) : List Word :=
  (run 0 snap.supplied.length).map fun i =>
    ownWord snap.versionWord snap.version (snap.offset + i) (snap.supplied.getD i ⟨0, 0⟩)
      (if snap.firstRead ≤ i then ((answers[i - snap.firstRead]?).getD .fault).word else 0)

/-- Read-own's outcome (02 R34). -/
def ownStatus (snap : Snapshot) (answers : List Answer) : Status :=
  if answers.any Answer.isFault then .fault else statusOfMark snap.torn

/-- Read-own takes its snapshot and, if some byte must come from memory, requests one memory read of the run from
the lowest to the highest such word; else it assembles the piece at once (02 R33, R34). -/
def State.readOwn (s : State) (p : Port) (spot : Spot) (beats : Nat) (address : Word) : State :=
  let d := s.definition spot.region
  let bufs := (s.basisOf spot.region spot.record ++ (s.gatheringOf spot.region spot.record).toList).map s.buffer
  let supplied := (run spot.offset beats).map (overlay bufs)
  let e := s.entry spot.region spot.record
  match uncovered d.versionWord spot.offset supplied with
  | [] =>
    s.finishPiece p beats (statusOfMark e.torn)
      (ownWords ⟨spot.offset, d.versionWord, supplied, e.version, e.torn, 0⟩ [])
  | first :: more =>
    let last := more.getLastD first
    ((s.setPlainRequest p (some (.read (address + BitVec.ofNat 32 (4 * first)) (last + 1 - first)))).awaitPiece p beats
      (some spot) (.readOwn ⟨spot.offset, d.versionWord, supplied, e.version, e.torn, first⟩))

/-! ### Ends of captures (05 R97) -/

/-- Lower by one the wait count of each buffer of a hold set (05 R97). -/
def State.lowerWaits (s : State) (holdSet : List BufId) : State :=
  holdSet.foldl (fun s b => s.setBuffer b { s.buffer b with waitCount := (s.buffer b).waitCount - 1 }) s

/-- A capture is the one that fills a view of a port. -/
def Capture.fills (c : Capture) (p : Port) (v : ViewIx) : Bool := c.port == p && c.view == some v

/-- The capture leaves the queue and ends (05 R97). -/
def State.endCapture (s : State) (c : Capture) : State :=
  (s.setCaptures (s.captures.erase c)).lowerWaits c.holdSet

/-! ### Releasing views (05, 5.8) -/

/-- The release of a view (05 R103): FREE, out of the use list, and its capture, if it has one, withdrawn or left
without a view according to its state. -/
def State.releaseView (s : State) (p : Port) (v : ViewIx) : State :=
  let t := s.setViews p
    { views := put (s.views.get p).views v { s.view p v with state := .free }
      useList := (s.views.get p).useList.erase v }
  match s.captures.find? (fun c => c.fills p v) with
  | none => t
  | some c =>
    match c.state with
    | .queued => t.endCapture c
    | .requesting => (t.setCaptureRequest none).endCapture c
    | .reading => t.setCaptures (s.captures.map fun x => if x.fills p v then { x with view := none } else x)

/-- A release by a command (05 R105, R106, R107): a piece waiting on the view's words is given back. -/
def State.releaseAndGiveBack (s : State) (pv : Port × ViewIx) : State :=
  let t := s.releaseView pv.1 pv.2
  match (t.port pv.1).service.piece with
  | none => t
  | some x => if x.wait = .onView pv.2 then t.giveBack pv.1 else t

/-- Every view of every port. -/
def allPortViews : List (Port × ViewIx) := allPorts.flatMap fun p => allViews.map fun v => (p, v)

/-- The non-FREE views that meet a condition. -/
def State.viewsWhere (s : State) (f : Port → View → Bool) : List (Port × ViewIx) :=
  allPortViews.filter fun pv => (s.view pv.1 pv.2).state != .free && f pv.1 (s.view pv.1 pv.2)

/-- Release these views, giving back the pieces that wait on them. -/
def State.releaseAll (s : State) (l : List (Port × ViewIx)) : State := l.foldl State.releaseAndGiveBack s

/-- One of these views has its capture in READING (05 R103): the capture its release cancels and leaves running. -/
def State.readingFor (s : State) (l : List (Port × ViewIx)) : Bool :=
  s.captures.any fun c => c.state == .reading && l.any fun pv => c.fills pv.1 pv.2

/-! ### Opening views (05, 5.2 and 5.3) -/

/-- The view an opening of the port takes (05 R87): the FREE view of lowest number, else the HELD view nearest the
front of the use list, else none. -/
def State.viewToOpen (s : State) (p : Port) : Option ViewIx :=
  match allViews.find? fun v => (s.view p v).state = .free with
  | some v => some v
  | none => (s.views.get p).useList.find? fun v => (s.view p v).state = .held

/-- The image, supplied marks and fill mask of an opening view (05 R89): the words its basis supplies, and the
version word. -/
def openedView (d : Definition) (x : View) (bufs : List Buffer) : View :=
  let x := (run 0 d.recordWords).foldl (fun x k =>
    let w := overlay bufs k
    { x with
      image := putD x.image k w.data
      supplied := putD x.supplied k w.enables
      fill := putD x.fill k (w.enables == 0xF) }) x
  match d.versionWord with
  | none => x
  | some k => { x with image := putD x.image k (versionAsWord x.version), fill := putD x.fill k true }

/-- The words of the record that are not filled (05 R91). -/
def unfilled (d : Definition) (x : View) : List Nat :=
  (run 0 d.recordWords).filter fun k => !cellD x.fill k false

/-- Open a view of a record in a FREE view (05 R85, R89, R90, R91): the basis, the version and torn indicator, the
supplied words, and a queued capture of the unfilled run, or HELD at once when no word is unfilled.
DESIGN CHOICE, safe (log 31): R85 gives a CAPTURING view no capture completion time, and the view keeps the one of
its former use, which no rule reads, until it becomes HELD.
DESIGN CHOICE, safe (log 32): a QUEUED capture's answers are the empty list, since only the request of its burst records every
word UNANSWERED (R95), and no rule reads them before it. -/
def State.openView (s : State) (p : Port) (v : ViewIx) (r : RegionId) (record : Nat) : State :=
  let d := s.definition r
  let e := s.entry r record
  let basis := s.basisOf r record
  let bufs := basis.map s.buffer
  let x := openedView d
    { state := .capturing, region := r, record := record, version := e.version + halfOf basis.length,
      torn := indicatorOf d bufs e.torn, image := Vector.replicate 16 0, supplied := Vector.replicate 16 0,
      fill := Vector.replicate 16 false, basis := basis, startTime := s.timebase,
      completeTime := (s.view p v).completeTime } bufs
  let l := (s.views.get p).useList ++ [v]
  match unfilled d x with
  | [] =>
    s.setViews p ⟨put (s.views.get p).views v { x with state := .held, completeTime := s.timebase }, l⟩
  | first :: more =>
    let last := more.getLastD first
    (s.setViews p ⟨put (s.views.get p).views v x, l⟩).setCaptures
      (s.captures ++ [{ view := some v, port := p, region := r, record := record, first := first,
                        count := last + 1 - first, holdSet := [], state := .queued, answers := [] }])

/-! ### Serving reads (05, 5.5) -/

/-- Every word of the piece is filled in the view (05 R98). -/
def pieceFilled (x : View) (offset beats : Nat) : Bool := (run offset beats).all fun k => cellD x.fill k false

/-- The words a view answers with (05 R98). -/
def viewWords (d : Definition) (x : View) (offset beats : Nat) : List Word :=
  (run offset beats).map fun k => if d.versionWord = some k then versionAsWord x.version else cellD x.image k 0

/-- Answer a piece from a view (05 R98, R99): its outcome by the torn indicator, the view to the back of the use list,
and then its release if the piece includes the release word. -/
def State.answerFromView (s : State) (p : Port) (v : ViewIx) (spot : Spot) (beats : Nat) : State :=
  let d := s.definition spot.region
  let x := s.view p v
  let t := (s.finishPiece p beats (statusOfMark x.torn) (viewWords d x spot.offset beats)).setUseList p
    ((s.views.get p).useList.erase v ++ [v])
  if spot.offset ≤ d.releaseOffset ∧ d.releaseOffset < spot.offset + beats then t.releaseView p v else t

/-- Serve a piece from a view: at once if its words are filled, else it waits on the view (05 R98). -/
def State.serveFromView (s : State) (p : Port) (v : ViewIx) (spot : Spot) (beats : Nat) : State :=
  if pieceFilled (s.view p v) spot.offset beats then s.answerFromView p v spot beats
  else s.awaitPiece p beats (some spot) (.onView v)

/-- The view store takes a read piece of a reader (05 R87, R88): served from the port's view of the record, or from one
it opens, evicting if it must, or awaiting a view. -/
def State.viewPiece (s : State) (p : Port) (spot : Spot) (beats : Nat) : State :=
  match s.viewOf p spot.region spot.record with
  | some v => s.serveFromView p v spot beats
  | none =>
    match s.viewToOpen p with
    | none => s.awaitPiece p beats (some spot) .forView
    | some v => ((s.releaseView p v).openView p v spot.region spot.record).serveFromView p v spot beats

/-! ### The end of a capture's read (05 R96, R102) -/

/-- Fill one word from memory (05 R96): a word not filled at the opening takes, in each byte whose source is memory,
memory's value. -/
def fillWord (x : View) (k : Nat) (memory : Word) : View :=
  if cellD x.fill k false then x
  else { x with
    image := putD x.image k (mergeWord memory (cellD x.image k 0) (cellD x.supplied k 0))
    fill := putD x.fill k true }

/-- Fill the run of a capture, from its first word on, with memory's words (05 R96). -/
def fillRun (x : View) : Nat → List Answer → View
  | _, [] => x
  | k, a :: as => fillRun (fillWord x k a.word) (k + 1) as

/-- A capture completes with every word OKAY (05 R96): it fills its view, which becomes HELD, answers the piece waiting
on it, and ends. -/
def State.completeCapture (s : State) (c : Capture) : State :=
  let t := s.endCapture c
  match c.view with
  | none => t
  | some v =>
    let t := t.setView c.port v
      { fillRun (t.view c.port v) c.first c.answers with state := .held, completeTime := t.timebase }
    match (t.port c.port).service.piece with
    | none => t
    | some x =>
      match x.spot with
      | none => t
      | some spot => if x.wait = Wait.onView v then t.answerFromView c.port v spot x.beats else t

/-- The place in a burst of its lowest word recorded FAULT (05 R102). -/
def firstFault (as : List Answer) : Nat := as.findIdx Answer.isFault

/-- A capture faults (05 R102): its view is released, the piece waiting on it is answered FAULT with zero words, and
MEMORY_FAULT is posted; with no view it only ends. -/
def State.faultCapture (s : State) (c : Capture) : State :=
  let t := s.endCapture c
  match c.view with
  | none => t
  | some v =>
    let t := t.releaseView c.port v
    let t := match (t.port c.port).service.piece with
      | none => t
      | some x => if x.wait = Wait.onView v then t.finishPiece c.port x.beats .fault (List.replicate x.beats 0) else t
    t.post (.memoryFault (c.first + firstFault c.answers)) c.region c.port c.record (s.version c.region c.record)

end Sys2Proof.Machine
end

