-- ==== Sys2Proof/Machine/Router.lean ====
section
/-! DEFINITION. The request router (02): cutting and classifying pieces, foreign writes, plain pieces, the response,
and the work that follows inside a step. -/

namespace Sys2Proof.Machine

/-- The address of beat k (02 R23). -/
def beatAddress (r : Request) (k : Nat) : Word := r.address + BitVec.ofNat 32 (4 * k)

/-- The request's last beat would lie above 0xFFFFFFFC (02 R23). -/
def pastTop (r : Request) : Bool := 0xFFFFFFFC < r.address.toNat + 4 * (r.beats - 1)

/-- The request is a READ. -/
def isRead : Request → Bool
  | .read _ _ => true
  | .write _ _ => false

/-- The words of a run of a WRITE's beats; a READ has none. -/
def requestWords (r : Request) (k n : Nat) : List WriteWord :=
  match r with
  | .read _ _ => []
  | .write _ ws => (ws.drop k).take n

/-- Two consecutive words lie in one piece: in the same record of the same ACTIVE region, or both in plain space (02 R27). -/
def samePiece : Option Spot → Option Spot → Bool
  | none, none => true
  | none, some _ => false
  | some _, none => false
  | some x, some y => x.region == y.region && x.record == y.record

/-- How many of the `n` words from beat `k` on continue a piece whose words so far lie where `here` says (02 R27). -/
def State.runLength (s : State) (r : Request) (here : Option Spot) : Nat → Nat → Nat
  | _, 0 => 0
  | k, n + 1 => if samePiece here (s.spotOf (beatAddress r k)) then 1 + s.runLength r here (k + 1) n else 0

/-- A plain piece, or a plain read of a guarded record, becomes one memory transaction (02 R29, R30). -/
def State.plainPiece (s : State) (p : Port) (r : Request) (k n : Nat) (spot : Option Spot) : State :=
  let q : MemRequest :=
    if isRead r then .read (beatAddress r k) n else .write (beatAddress r k) (requestWords r k n)
  (s.setPlainRequest p (some q)).awaitPiece p n spot .memory

/-- A foreign write is refused at once, and WRITE_REFUSED is posted (02 R31). -/
def State.foreignWrite (s : State) (p : Port) (spot : Spot) (n : Nat) : State :=
  (s.post (.writeRefused .foreign) spot.region p spot.record (s.version spot.region spot.record)).finishPiece p n
    .refused []

/-- Hand a piece to its path, by whether it is guarded, its form and the port's role (02 R28). -/
def State.handPiece (s : State) (p : Port) (r : Request) (k n : Nat) (spot : Option Spot) : State :=
  match spot with
  | none => s.plainPiece p r k n none
  | some x =>
    let d := s.definition x.region
    if d.writer = p then
      if isRead r then s.readOwn p x n (beatAddress r k)
      else s.stagePiece p x (beatAddress r k) (requestWords r k n)
    else if isRead r then
      if d.readers.get p then s.viewPiece p x n else s.plainPiece p r k n (some x)
    else s.foreignWrite p x n

/-- The response to a request (02 R24, R37): the highest outcome, and a READ's words. -/
def responseOf (r : Request) (v : Service) : Response :=
  ⟨worst v.outcomes, if isRead r then v.words else []⟩

/-- Return the head's response; the next request enters service (02 R26, R37). -/
def State.respond (s : State) (p : Port) (r : Request) (rest : List Request) : State :=
  s.setPort p
    { s.port p with
      queue := rest
      service := .fresh
      responses := (s.port p).responses ++ [responseOf r (s.port p).service] }

/-- One move of a port's router (02 R26, R27, R37): answer a request past the top of the address space FAULT (R23), form
and hand out the next piece, or respond when every word has its piece. -/
def State.advance (s : State) (p : Port) : State :=
  match (s.port p).queue with
  | [] => s
  | r :: rest =>
    let k := (s.port p).service.next
    if r.beats ≤ k then s.respond p r rest
    else if pastTop r then
      s.finishPiece p r.beats .fault (if isRead r then List.replicate r.beats 0 else [])
    else
      let spot := s.spotOf (beatAddress r k)
      s.handPiece p r k (1 + s.runLength r spot (k + 1) (r.beats - (k + 1))) spot

/-- A port's router can move: a request is in service and no piece of it is outstanding, or its piece awaits a view and
one can now be had, which forms the piece afresh (02 R36, 05 R88; log 16). -/
def State.canAdvance (s : State) (p : Port) : Bool :=
  match (s.port p).queue, (s.port p).service.piece with
  | [], _ => false
  | _ :: _, none => true
  | _ :: _, some x => x.wait == .forView && (s.viewToOpen p).isSome

/-- The work left in the ports' queues, which bounds the moves of one step: a move forms a piece of at least one word,
or responds, or forms an awaiting piece afresh. -/
def State.workLeft (s : State) : Nat :=
  (allPorts.map fun p => ((s.port p).queue.map fun r => 2 * r.beats + 3).sum).sum

/-- The ports whose routers can move. -/
def State.movable (s : State) : List Port := allPorts.filter s.canAdvance

/-- Move the routers until none can; where several can, which is first is a free choice (log 9). -/
def runRouters : Nat → State → State
  | 0, s => s
  | n + 1, s =>
    match s.movable with
    | [] => s
    | [p] => runRouters n (s.advance p)
    | p :: q :: ps =>
      let l := p :: q :: ps
      runRouters n ((s.setChoices (s.choices + 1)).advance (l.getD (Config.freeChoice s.choices % l.length) p))

/-- What the routers do before a step ends. -/
def State.route (s : State) : State := runRouters s.workLeft s

end Sys2Proof.Machine
end

