-- ==== Sys2Proof/Machine/Commits.lean ====
section
/-! DEFINITION. The commit engine (04): eligibility, the burst, the completion, and the evaluation of watches (07, 7.3). -/

namespace Sys2Proof.Machine

/-- The first CLOSED buffer of a close order that is eligible (04 R69, R70): its wait count is 0 and no buffer of its
record stands before it; `earlier` holds the buffers already passed. -/
def State.firstEligible (s : State) : List BufId → List BufId → Option BufId
  | _, [] => none
  | earlier, b :: rest =>
    let x := s.buffer b
    if x.state = .closed ∧ x.waitCount = 0 ∧ earlier.all (fun e => !(s.buffer e).ofRecord x.region x.record) then some b
    else s.firstEligible (b :: earlier) rest

/-- The eligible buffer that stands earliest in the close order (04 R70). -/
def State.eligible (s : State) : Option BufId := s.firstEligible [] s.pool.closeOrder

/-- The word offsets a burst must reach: those with a staged byte, and the version word (04 R72). -/
def burstOffsets (d : Definition) (x : Buffer) : List Nat :=
  (run 0 d.recordWords).filter fun k => cellD x.mask k 0 != 0 || d.versionWord == some k

/-- One word of a burst (04 R72, R73): the version word carries the new version with all enables on; any other word its
image under its mask, 0x00000000 with all enables off where no byte is staged. -/
def burstWord (d : Definition) (x : Buffer) (newVersion : Half) (k : Nat) : WriteWord :=
  if d.versionWord = some k then ⟨versionAsWord newVersion, 0xF⟩
  else if cellD x.mask k 0 = 0 then ⟨0, 0⟩
  else ⟨cellD x.image k 0, cellD x.mask k 0⟩

/-- The burst of a buffer (04 R72): its first word offset and its words, every answer UNANSWERED. -/
def commitJob (d : Definition) (b : BufId) (x : Buffer) (newVersion : Half) : CommitJob :=
  let offs := burstOffsets d x
  let first := offs.headD 0
  let n := offs.getLastD first + 1 - first
  { buffer := b, first := first, words := (run first n).map (burstWord d x newVersion),
    answers := List.replicate n .unanswered }

/-- The engine, when IDLE, takes the earliest eligible buffer (04 R70). -/
def State.takeCommit (s : State) : State :=
  match s.engine with
  | .requesting _ => s
  | .writing _ => s
  | .idle =>
    match s.eligible with
    | none => s
    | some b =>
      let x := s.buffer b
      let d := s.definition x.region
      let job := commitJob d b x (s.version x.region x.record + 1)
      ((s.setBuffer b { x with state := .committing }).setCommitRequest
        (some (.write (addressOf d x.record job.first) job.words))).setEngine (.requesting job)

/-! ### Watches at a completion (07 R128, R129) -/

/-- A completed commit as the event unit receives it (04 R78). -/
structure Committed where
  region  : RegionId
  record  : Nat
  writer  : Port
  version : Half
  first   : Nat
  words   : List WriteWord
  answers : List Answer
deriving DecidableEq, Repr

/-- The word of the commit a watch examines, if the watch is evaluated at it (07 R128). -/
def watchedWord (c : Committed) (w : Watch) : Option Word :=
  if w.state = .active ∧ w.region = c.region ∧ (w.record = none ∨ w.record = some c.record) ∧ c.first ≤ w.offset then
    match c.words[w.offset - c.first]?, c.answers[w.offset - c.first]? with
    | some x, some a => if selectedWritten w.mask x a then some x.data else none
    | some _, none => none
    | none, _ => none
  else none

/-- Evaluate one watch at a completion (07 R128, R129). -/
def State.evaluateWatch (s : State) (c : Committed) (i : WatchIx) : State :=
  let w := cell s.events.watches i
  match watchedWord c w with
  | none => s
  | some data =>
    if w.matches data then
      (s.setEvents { s.events with watches := put s.events.watches i (w.afterMatch data) }).post (.watchMatch i)
        c.region c.writer c.record c.version
    else s

/-- Evaluate the watches in ascending index (07 R128). -/
def State.evaluateWatches (s : State) (c : Committed) : State :=
  allWatches.foldl (fun s i => s.evaluateWatch c i) s

/-! ### Completion (04 R76 to R79) -/

/-- The region table counts a commit of a DRAINING region (01 R11), and the link's RESTART notes that the commit it found
in flight has completed (08 R153). -/
def Executing.afterCommit (e : Executing) (r : RegionId) : Executing :=
  match e with
  | .activate a n => .activate a n
  | .retire a n c v => if a = r then .retire a n (c + 1) v else .retire a n c v
  | .flushPort n v w => .flushPort n v w
  | .restart g c v f _ wc => .restart g c v f false wc

/-- Change what the link holds of the executing command, if one executes. -/
def State.mapExecuting (s : State) (f : Executing → Executing) : State :=
  match s.link.state with
  | .idle => s
  | .receiving _ _ => s
  | .result _ _ => s
  | .executing e => s.setLink { s.link with state := .executing (f e) }

/-- The table's and pool's part of a completion (04 R76, R77): the version advances, the mark is settled, and a commit at
fault makes the record's other buffers pre-torn and posts RECORD_TORN. -/
def State.settleRecord (s : State) (b : BufId) (faulted : Bool) : State :=
  let x := s.buffer b
  let e := s.entry x.region x.record
  let v := e.version + 1
  let t := s.setEntry x.region x.record
    ⟨v, markAfterCommit faulted (covers (s.definition x.region) x.mask) x.preTorn e.torn⟩
  if faulted then
    (t.makePreTorn x.region x.record (some b)).post (.recordTorn .commitFault) x.region x.writer x.record v
  else t

/-- The committed buffer goes to FREE and leaves the close order (04 R79). -/
def State.freeCommitted (s : State) (b : BufId) : State :=
  s.setPool
    { s.pool with
      buffers := put s.pool.buffers b { s.buffer b with state := .free, waitCount := 0 }
      closeOrder := s.pool.closeOrder.erase b }

/-- A commit's completion, in the step of its transaction's end (04 R76 to R79). The drain's own completion (R79, step 2)
is made at the end of the step by `completeLong`, and a port whose held write opens forms its next piece after the engine has taken its
next buffer (DESIGN CHOICE, log 30; unsafe). -/
def State.completeCommit (s : State) (job : CommitJob) : State :=
  let x := s.buffer job.buffer
  let t := s.settleRecord job.buffer (job.answers.any Answer.isFault)
  let t := t.evaluateWatches
    { region := x.region, record := x.record, writer := x.writer, version := t.version x.region x.record,
      first := job.first, words := job.words, answers := job.answers }
  let t := (t.freeCommitted job.buffer).mapExecuting fun e => e.afterCommit x.region
  ((t.setEngine .idle).examineHolds).takeCommit

end Sys2Proof.Machine
end

