-- ==== Sys2Proof/Machine/MemoryPort.lean ====
section
/-! DEFINITION. The memory port (06): arbitration, grants, answers, the end of a transaction and where its answers go. -/

namespace Sys2Proof.Machine

/-! ### The arbiter (06, 6.2) -/

/-- The requester next in the ring (06 R111). -/
def Requester.next : Requester → Requester
  | .plain .u0 => .plain .u1
  | .plain .u1 => .plain .u2
  | .plain .u2 => .commit
  | .commit => .capture
  | .capture => .plain .u0

/-- The ring from a requester on (06 R111). -/
def ringFrom (q : Requester) : List Requester :=
  [q, q.next, q.next.next, q.next.next.next, q.next.next.next.next]

/-- The requester the arbiter grants: the first from the ring pointer with a pending request (06 R111). -/
def MemPort.winner (m : MemPort) : Option Requester :=
  (ringFrom m.ring).find? fun q => (m.pendingOf q).isSome

/-- The requester is told of its grant: the commit engine enters WRITING (04 R74), the capture at the front READING
(05 R95). -/
def State.tellGrant (s : State) (q : Requester) : State :=
  match q with
  | .plain _ => s
  | .commit =>
    match s.engine with
    | .idle => s
    | .requesting job => s.setEngine (.writing job)
    | .writing _ => s
  | .capture =>
    match s.captures with
    | [] => s
    | c :: cs => s.setCaptures ({ c with state := .reading } :: cs)

/-- The grant of one requester's request (06 R111, R112). -/
def State.grantTo (s : State) (q : Requester) (t : MemRequest) : State :=
  (s.setMem
    { s.mem.clearPending q with
      outstanding := some
        { requester := q, tag := s.mem.tagCounter, request := t, grantTime := s.timebase,
          answers := List.replicate t.count .unanswered, discard := false }
      tagCounter := s.mem.tagCounter + 1
      ring := q.next
      issued := s.mem.issued ++ [⟨s.mem.tagCounter, t⟩] }).tellGrant q

/-- With the port IDLE and a request pending, grant the first requester in ring order (06 R111). -/
def State.grant (s : State) : State :=
  match s.mem.outstanding with
  | some _ => s
  | none =>
    match s.mem.winner with
    | none => s
    | some q =>
      match s.mem.pendingOf q with
      | none => s
      | some t => s.grantTo q t

/-! ### The capture engine's requests (05 R95) -/

/-- With no capture in REQUESTING or READING, take the one at the front and request its burst (05 R95). -/
def State.requestCapture (s : State) : State :=
  if s.captures.any (fun c => c.state != .queued) then s
  else match s.captures with
    | [] => s
    | c :: cs =>
      (s.setCaptures ({ c with state := .requesting, answers := List.replicate c.count .unanswered } :: cs)).setCaptureRequest
        (some (.read (addressOf (s.definition c.region) c.record c.first) c.count))

/-! ### Answers (06, 6.3 and 6.4) -/

/-- What is recorded of an answer: a READ word's data is kept, a WRITE word has none (06 R113). -/
def recorded (t : MemRequest) (a : MemAnswer) : Answer :=
  match a, t with
  | .fault, _ => .fault
  | .okay w, .read _ _ => .okay w
  | .okay _, .write _ _ => .okay 0

/-- Hand a change of the answers on to the owner that keeps its own record: the commit engine (04 R75) and the capture at
the front (05 R95). A plain requester's path takes the answers at the end (06 R116). -/
def State.handOn (s : State) (q : Requester) (f : List Answer → List Answer) : State :=
  match q with
  | .plain _ => s
  | .commit =>
    match s.engine with
    | .idle => s
    | .requesting _ => s
    | .writing job => s.setEngine (.writing { job with answers := f job.answers })
  | .capture =>
    match s.captures with
    | [] => s
    | c :: cs => s.setCaptures ({ c with answers := f c.answers } :: cs)

/-- Change the outstanding transaction's answers, and hand the change on unless its discard indicator is on (06 R113). -/
def State.recordAnswers (s : State) (t : Transaction) (f : List Answer → List Answer) : State :=
  let u := s.setMem { s.mem with outstanding := some { t with answers := f t.answers } }
  if t.discard then u else u.handOn t.requester f

/-- The end of a plain requester's transaction (06 R116): the outcome and words of its piece, by the path that waits. -/
def State.endPlain (s : State) (p : Port) (answers : List Answer) : State :=
  match (s.port p).service.piece with
  | none => s
  | some x =>
    match x.wait with
    | .memory =>
      s.finishPiece p x.beats (if answers.any Answer.isFault then .fault else .okay)
        (match (s.port p).queue with
          | [] => []
          | r :: _ => if isRead r then answers.map Answer.word else [])
    | .readOwn snap => s.finishPiece p x.beats (ownStatus snap answers) (ownWords snap answers)
    | .held => s
    | .onView _ => s
    | .forView => s

/-- A capture in READING has ended: the FLUSH PORT (02 R41) or RESTART (08 R153) that waits for it waits no more. -/
def Executing.afterCapture (e : Executing) : Executing :=
  match e with
  | .activate a n => .activate a n
  | .retire a n c v => .retire a n c v
  | .flushPort n v _ => .flushPort n v false
  | .restart g c v f wm _ => .restart g c v f wm false

/-- The end of the capture engine's transaction (06 R117, 05 R96, R102). -/
def State.endRead (s : State) : State :=
  match s.captures with
  | [] => s
  | c :: _ =>
    (if c.answers.any Answer.isFault then s.faultCapture c else s.completeCapture c).mapExecuting Executing.afterCapture

/-- The end of the outstanding transaction (06 R114, R116, R117): the port goes to IDLE and the owner is told. -/
def State.endTransaction (s : State) (q : Requester) (answers : List Answer) (discard : Bool) : State :=
  let u := s.setMem { s.mem with outstanding := none }
  if discard then u
  else match q with
    | .plain p => u.endPlain p answers
    | .commit =>
      match u.engine with
      | .idle => u
      | .requesting _ => u
      | .writing job => u.completeCommit job
    | .capture => u.endRead

/-- Record a change of the answers of the outstanding transaction, and end it when no word is UNANSWERED (06 R113, R114). -/
def State.takeAnswers (s : State) (t : Transaction) (f : List Answer → List Answer) : State :=
  let u := s.recordAnswers t f
  if allAnswered (f t.answers) then u.endTransaction t.requester (f t.answers) t.discard else u

/-- Memory's answer to one word (06 R113, R115): accepted if the port is BUSY and the tag is the outstanding transaction's,
discarded otherwise. -/
def State.memoryAnswer (s : State) (tag : Byte) (a : MemAnswer) : State :=
  match s.mem.outstanding with
  | none => s
  | some t => if t.tag = tag then s.takeAnswers t fun as => answerFirst as (recorded t.request a) else s

/-- The memory timeout (06 R114), in the microsecond 64 µs after the grant: each word still UNANSWERED is recorded FAULT, and the
transaction ends. -/
def State.memoryTimeout (s : State) : State :=
  match s.mem.outstanding with
  | none => s
  | some t => if due s.timebase t.grantTime memoryTimeoutMicros then s.takeAnswers t closeUnanswered else s

end Sys2Proof.Machine
end

