-- ==== Sys2Proof/Machine/LinkOps.lean ====
section
/-! DEFINITION. The link controller's shared operations (08): results, the completion of long commands, the end of a step, and
SPI data out. -/

namespace Sys2Proof.Machine

/-! ### Results (08 R146) -/

/-- A result, byte by byte: completion code, length, data, check (08 R146). -/
def resultBytes (c : Completion) (data : List Byte) : List Byte :=
  let body := [codeOfCompletion c, byteOf data.length] ++ data
  body ++ [crc8 body]

/-- The link forms a result and goes to RESULT, the read position at the first byte (08 R146). -/
def State.formResult (s : State) (c : Completion) (data : List Byte) : State :=
  s.setLink { s.link with state := .result (resultBytes c data) 0 }

/-- What carrying out a command answers (08 R145): DONE with data, a failed check, or a long command taken. -/
inductive Reply where
  | done (data : List Byte)
  | fail (c : Completion)
  | long (e : Executing)
deriving DecidableEq, Repr

/-- The link after a command has been carried out or taken (08 R145). -/
def State.conclude (s : State) : Reply → State
  | .done data => s.formResult .done data
  | .fail c => s.formResult c []
  | .long e => s.setLink { s.link with state := .executing e }

/-! ### Completion of long commands (08 R145) -/

/-- A long command whose condition holds completes (01 R8, R12; 02 R41; 08 R153). -/
def State.completeLong (s : State) : State :=
  match s.link.state with
  | .idle => s
  | .receiving _ _ => s
  | .result _ _ => s
  | .executing e =>
    match e with
    | .activate r n =>
      if (s.definition r).recordCount ≤ n then (s.setRegionState r .active).formResult .done [] else s
    | .retire r a c v =>
      if s.regionIdle r then (s.setRegionState r .defined).formResult .done [byteOf a, byteOf c, byteOf v] else s
    | .flushPort a v w => if w then s else s.formResult .done [byteOf a, byteOf v]
    | .restart g c v f wm wc =>
      if wm || wc then s else s.formResult .done [byteOf g, byteOf c, byteOf v, byteOf f]

/-- What follows in the same step once a block has acted: the routers move on (02 R26, R27), and a long command whose
condition now holds completes (08 R145). The routers move after the step's other effects, the examination of held writes among them
(DESIGN CHOICE, log 30; unsafe). -/
def State.settle (s : State) : State := s.route.completeLong

/-! ### SPI data out (08 R138) -/

/-- Present bits on SPI data out. -/
def State.present (s : State) (bits : List Bool) : State :=
  s.setLink { s.link with presented := s.link.presented ++ bits }

/-- Bits of 0x00 bytes. -/
def zeros (n : Nat) : List Bool := List.replicate n false

/-- Record a refused or ignored frame (08 R141). -/
def State.setLastRefusal (s : State) (x : LastRefusal) : State :=
  s.setLink { s.link with lastRefusal := x }

/-- Set the treatment of the frame in progress, or none when chip select has risen (08 R138). -/
def State.setFrame (s : State) (x : Option Treatment) : State := s.setLink { s.link with frame := x }

/-- Set the link state (08 R139). -/
def State.setLinkState (s : State) (x : LinkState) : State := s.setLink { s.link with state := x }

end Sys2Proof.Machine
end

