-- ==== Sys2Proof/Machine/RegionCommands.lean ====
section
/-! DEFINITION. The region and record commands as their owner carries them out (01). Each answers the state with the owner's
effects and the reply the link makes a result of. -/

namespace Sys2Proof.Machine

/-- DEFINE REGION (01 R1, R2, R3). -/
def State.doDefineRegion (s : State) (d : DefineParams) : State × Reply :=
  match regionOfByte d.regionIndex with
  | none => (s, .fail .badParam)
  | some r =>
    if (s.region r).state = .empty ∨ (s.region r).state = .defined then
      if legalDefinition d then (s.setRegion r ⟨.defined, definitionOf d r⟩, .done []) else (s, .fail .badParam)
    else (s, .fail .wrongState)

/-- A region in ACTIVATING, ACTIVE or DRAINING (01 R7). -/
def RegionState.owning : RegionState → Bool
  | .empty => false
  | .defined => false
  | .activating => true
  | .active => true
  | .draining => true

/-- ACTIVATE's comparison with every other entry in ACTIVATING, ACTIVE or DRAINING (01 R7). -/
def State.conflicts (s : State) (r : RegionId) : Bool :=
  allRegions.any fun q => q != r && (s.region q).state.owning && overlaps (s.definition r) (s.definition q)

/-- ACTIVATE (01 R1, R7): taken, the region goes to ACTIVATING with no entry filled. -/
def State.doActivate (s : State) (b : Byte) : State × Reply :=
  match regionOfByte b with
  | none => (s, .fail .badParam)
  | some r =>
    if (s.region r).state = .defined then
      if s.conflicts r then (s, .fail .conflict) else (s.setRegionState r .activating, .long (.activate r 0))
    else (s, .fail .wrongState)

/-- A piece of this port awaits a view in the region (05 R88). -/
def State.awaitsViewIn (s : State) (r : RegionId) (p : Port) : Bool :=
  match (s.port p).service.piece with
  | none => false
  | some x => x.wait == .forView && (match x.spot with | some y => y.region == r | none => false)

/-- Give back the pieces that await a view in the region (05 R88, R106). -/
def State.giveBackAwaiting (s : State) (r : RegionId) : State :=
  allPorts.foldl (fun s p => if s.awaitsViewIn r p then s.giveBack p else s) s

/-- The region's GATHERING buffers, in the order of its writer port's gathering list (03 R65). -/
def State.gatheringIn (s : State) (r : RegionId) : List BufId :=
  (s.pool.gathering.get (s.definition r).writer).filter fun b => (s.buffer b).region = r

/-- The held writes whose pieces lie in a region (03 R58). -/
def State.holdsIn (s : State) (r : RegionId) : List HeldWrite := s.pool.holds.filter fun h => h.spot.region = r

/-- RETIRE as taken (01 R10, 03 R65, R58, 05 R106): the region goes to DRAINING, its views are released, its GATHERING
buffers abandoned or closed in list order, its held write refused, and the other held writes examined. No order is given between that
examination and the next piece of the port whose held write is refused (02 R27, 03 R58), or the pieces given back or awaiting a view; here
the examination comes first, and so the other held writes take the freed buffers first (DESIGN CHOICE, log 30; unsafe). -/
def State.retireTaken (s : State) (r : RegionId) (mode : DrainMode) : State × Reply :=
  let vs := s.viewsWhere fun _ x => x.region = r
  let bs := s.gatheringIn r
  let t := ((s.setRegionState r .draining).releaseAll vs).giveBackAwaiting r
  let t := match mode with
    | .abandon => bs.foldl (State.abandonBuffer · .retire ·) t
    | .close => bs.foldl State.closeBuffer t
  let t := (t.holdsIn r).foldl (State.refuseHold · .retired ·) t
  (t.examineHolds, .long (.retire r (match mode with | .abandon => bs.length | .close => 0) 0 vs.length))

/-- RETIRE (01 R1, R10). -/
def State.doRetire (s : State) (b mode : Byte) : State × Reply :=
  match regionOfByte b with
  | none => (s, .fail .badParam)
  | some r =>
    if (s.region r).state = .active then
      match modeOfCode mode with
      | none => (s, .fail .badParam)
      | some m => s.retireTaken r m
    else (s, .fail .wrongState)

/-- READ REGION (01 R13, 08 R157): the state, then the definition's 21 bytes. -/
def State.doReadRegion (s : State) (b : Byte) : State × Reply :=
  match regionOfByte b with
  | none => (s, .fail .badParam)
  | some r => (s, .done (codeOfRegionState (s.region r).state :: definitionBytes (s.definition r)))

/-- The watches that name a region and are not UNUSED: those CLEAR REGION makes UNUSED (01 R14). -/
def State.watchesOf (s : State) (r : RegionId) : List WatchIx :=
  allWatches.filter fun i => (cell s.events.watches i).state != .unused && (cell s.events.watches i).region == r

/-- Write a watch. -/
def State.setWatch (s : State) (i : WatchIx) (w : Watch) : State :=
  s.setEvents { s.events with watches := put s.events.watches i w }

/-- CLEAR REGION (01 R1, R14): EMPTY, its watches UNUSED; the data is how many. -/
def State.doClearRegion (s : State) (b : Byte) : State × Reply :=
  match regionOfByte b with
  | none => (s, .fail .badParam)
  | some r =>
    if (s.region r).state = .defined then
      ((s.watchesOf r).foldl (fun s i => s.setWatch i .unusedValues) (s.setRegion r .emptyEntry),
        .done [byteOf (s.watchesOf r).length])
    else (s, .fail .wrongState)

/-- A buffer's five bytes in READ RECORD's data (08 R158); a GATHERING buffer reports wait count 0 (01 R21). -/
def bufferBytes (x : Buffer) : List Byte :=
  [codeOfBufferState x.state, codeOfPort x.writer, byteOf (bytesStaged x.mask),
    byteOf (if x.state = .gathering then 0 else x.waitCount), if x.preTorn then 0x01 else 0x00]

/-- The record's non-FREE buffers in READ RECORD's order (01 R21). -/
def State.buffersOf (s : State) (r : RegionId) (record : Nat) : List BufId :=
  s.basisOf r record ++ (s.gatheringOf r record).toList

/-- READ RECORD's data (01 R21, 08 R158). -/
def State.recordBytes (s : State) (r : RegionId) (record : Nat) : List Byte :=
  let e := s.entry r record
  let bs := s.buffersOf r record
  bytes2 e.version ++ [codeOfMark e.torn, byteOf bs.length] ++ (bs.flatMap fun b => bufferBytes (s.buffer b)) ++
  (allPorts.map fun p => if (s.viewOf p r record).isSome then (0x01 : Byte) else 0x00)

/-- READ RECORD (01 R1, R21). -/
def State.doReadRecord (s : State) (b : Byte) (record : Half) : State × Reply :=
  match regionOfByte b with
  | none => (s, .fail .badParam)
  | some r =>
    if (s.region r).state = .active then
      if record.toNat < (s.definition r).recordCount then (s, .done (s.recordBytes r record.toNat))
      else (s, .fail .badParam)
    else (s, .fail .wrongState)

/-- CLEAR TORN (01 R1, R20): the mark goes CLEAN; the data is the mark before. -/
def State.doClearTorn (s : State) (b : Byte) (record : Half) : State × Reply :=
  match regionOfByte b with
  | none => (s, .fail .badParam)
  | some r =>
    if (s.region r).state = .active then
      if record.toNat < (s.definition r).recordCount then
        (s.setEntry r record.toNat { s.entry r record.toNat with torn := .clean },
          .done [codeOfMark (s.entry r record.toNat).torn])
      else (s, .fail .badParam)
    else (s, .fail .wrongState)

end Sys2Proof.Machine
end

