-- ==== Sys2Proof/Machine/EventCommands.lean ====
section
/-! DEFINITION. The watch and event commands as the event unit carries them out (07). -/

namespace Sys2Proof.Machine

/-- The checks of SET WATCH's step 4 (07 R124, 08 R159): record ANY (0xFFFF) or below the record count, word offset below
the record words, condition and repeat among their named values. -/
def legalWatch (d : Definition) (w : WatchParams) : Bool :=
  (w.record == 0xFFFF || w.record.toNat < d.recordCount) && w.offset.toNat < d.recordWords &&
  (conditionOfCode w.condition).isSome && (repeatOfCode w.mode).isSome

/-- The ACTIVE watch a SET WATCH writes (07 R124). -/
def watchOf (w : WatchParams) (r : RegionId) : Watch :=
  { state := .active, region := r, record := if w.record = 0xFFFF then none else some w.record.toNat,
    offset := w.offset.toNat, mask := w.mask, reference := w.reference,
    condition := (conditionOfCode w.condition).getD .equal, mode := (repeatOfCode w.mode).getD .once }

/-- SET WATCH (07 R124). -/
def State.doSetWatch (s : State) (w : WatchParams) : State × Reply :=
  match watchOfByte w.watch with
  | none => (s, .fail .badParam)
  | some i =>
    match regionOfByte w.region with
    | none => (s, .fail .badParam)
    | some r =>
      if (s.region r).state = .empty then (s, .fail .wrongState)
      else if legalWatch (s.definition r) w then
        (s.setWatch i (watchOf w r), .done [codeOfWatchState (cell s.events.watches i).state])
      else (s, .fail .badParam)

/-- CLEAR WATCH (07 R126). -/
def State.doClearWatch (s : State) (b : Byte) : State × Reply :=
  match watchOfByte b with
  | none => (s, .fail .badParam)
  | some i => (s.setWatch i .unusedValues, .done [codeOfWatchState (cell s.events.watches i).state])

/-- READ WATCH (07 R127). -/
def State.doReadWatch (s : State) (b : Byte) : State × Reply :=
  match watchOfByte b with
  | none => (s, .fail .badParam)
  | some i => (s, .done (watchBytes (cell s.events.watches i)))

/-- READ EVENTS (07 R132): the lost count, the number returned and that many of the oldest events, which leave the queue; the
lost count goes to 0 and the line is re-evaluated. -/
def State.doReadEvents (s : State) (maximum : Byte) : State × Reply :=
  if 1 ≤ maximum.toNat ∧ maximum.toNat ≤ 8 then
    let out := s.events.queue.take maximum.toNat
    (s.setEvents (EventUnit.reevaluate { s.events with queue := s.events.queue.drop maximum.toNat, lost := 0 }),
      .done ([byteOf s.events.lost, byteOf out.length] ++ out.flatMap eventBytes))
  else (s, .fail .badParam)

/-- SET EVENT MASKS (07 R133, 08 R159): an attention mask with any of bits 9–15 set is illegal; else both masks are replaced
and the line is re-evaluated. -/
def State.doSetEventMasks (s : State) (queueMask : Byte) (attentionMask : Half) : State × Reply :=
  if attentionMask.toNat < 512 then
    (s.setEvents (EventUnit.reevaluate
      { s.events with queueMask := queueMask, attentionMask := attentionMask.setWidth 9 }), .done [])
  else (s, .fail .badParam)

end Sys2Proof.Machine
end

