-- ==== Sys2Proof/Machine/PortCommands.lean ====
section
/-! DEFINITION. FLUSH PORT (02, 2.11), IDENTIFY (08 R151) and RESTART (08, 8.5) as the blocks they reach carry them out, and
the port-reset line's effects (02, 2.10). -/

namespace Sys2Proof.Machine

/-- IDENTIFY (08 R151, R161): part code, revision and capacities. -/
def identityBytes : List Byte :=
  bytes2 0x3416 ++ [0x01, 3, 16] ++ bytes2 4096 ++ [16, 4, 8, 32]

/-- The port's non-FREE views. -/
def State.viewsOfPort (s : State) (p : Port) : List (Port × ViewIx) := s.viewsWhere fun q _ => q = p

/-- Abandon every GATHERING buffer of a port, in the order of its gathering list (03 R63, R64). -/
def State.abandonAll (s : State) (p : Port) (cause : AbandonCause) : State :=
  (s.pool.gathering.get p).foldl (fun s b => s.abandonBuffer cause b) s

/-- FLUSH PORT as taken (02 R40, 03 R64, 05 R105): the port's GATHERING buffers abandoned, its views released with their pieces
given back, the held writes examined, before the pieces given back or awaiting a view are formed again (DESIGN CHOICE, log 30). It
waits for a capture it cancelled that is still READING (02 R41; log 15). -/
def State.flushTaken (s : State) (p : Port) : State × Reply :=
  let vs := s.viewsOfPort p
  let t := ((s.abandonAll p .flush).releaseAll vs).examineHolds
  (t, .long (.flushPort (s.pool.gathering.get p).length vs.length (s.readingFor vs)))

/-- FLUSH PORT (02 R40, 08 R161). -/
def State.doFlushPort (s : State) (b : Byte) : State × Reply :=
  match portOfCode b with
  | none => (s, .fail .badParam)
  | some p => s.flushTaken p

/-- The buffers in a state. -/
def State.buffersIn (s : State) (st : BufferState) : List BufId := allBuffers.filter fun b => (s.buffer b).state = st

/-- RESTART's discards (03 R66): every GATHERING and CLOSED buffer goes to FREE, the gathering lists become empty, the close order
keeps the COMMITTING buffer, and no hold set keeps a discarded buffer. No event is posted. -/
def State.discardUpdates (s : State) : State :=
  (s.setPool
    { s.pool with
      buffers := s.pool.buffers.map fun x =>
        if x.state = .gathering ∨ x.state = .closed then { x with state := .free } else x
      gathering := ⟨[], [], []⟩
      closeOrder := s.pool.closeOrder.filter fun b => (s.buffer b).state = .committing }).setCaptures
    (s.captures.map fun c => { c with holdSet := c.holdSet.filter fun b => (s.buffer b).state != .closed })

/-- RESTART's effect on the event unit (07 R135). -/
def EventUnit.restarted (e : EventUnit) : EventUnit :=
  EventUnit.reevaluate { e with queue := [], lost := 0, sequence := 0 }

/-- A released capture is in READING (08 R152): after RESTART's releases any capture in READING is released (log 15). -/
def State.anyReading (s : State) : Bool := s.captures.any fun c => c.state == .reading

/-- A commit is in flight: the engine holds a COMMITTING buffer (04 R68). -/
def State.committing (s : State) : Bool := s.engine != .idle

/-- RESTART as taken (08 R152). The manual gives no order between the examination of the held writes (03 R66) and the forming again of
the pieces given back or awaiting a view (05 R107); here the held writes come first, so an update that one of them opens and closes
lies in the basis of a view opened in this step (DESIGN CHOICE, log 30; unsafe). -/
def State.doRestart (s : State) : State × Reply :=
  let vs := s.viewsWhere fun _ _ => true
  let t := (s.discardUpdates.releaseAll vs).setEvents s.events.restarted
  let u := t.examineHolds
  (u, .long (.restart (s.buffersIn .gathering).length (s.buffersIn .closed).length vs.length
    (if s.committing then 1 else 0) s.committing s.anyReading))

/-! ### The port-reset line (02, 2.10) -/

/-- Drop every request of a port, with the piece in service (02 R38); the line stands asserted. -/
def State.dropRequests (s : State) (p : Port) : State :=
  s.setPort p { s.port p with queue := [], service := .fresh, resetLine := true }

/-- Drop the port's held write, without an outcome or an event (03 R58, R63). -/
def State.dropHold (s : State) (p : Port) : State :=
  s.setPool { s.pool with holds := s.pool.holds.filter fun h => h.port != p }

/-- The outstanding transaction is this port's plain requester's. -/
def isPlainOf (p : Port) (t : Transaction) : Bool := t.requester == .plain p

/-- The port reset at the memory port (06 R118): a pending request withdrawn, the outstanding transaction's discard indicator on. -/
def State.resetPlain (s : State) (p : Port) : State :=
  s.setMem
    { s.mem with
      plain := s.mem.plain.set p none
      outstanding := s.mem.outstanding.map fun t => if isPlainOf p t then { t with discard := true } else t }

/-- The assertion of a port-reset line (02 R38, R39; 03 R63; 05 R104; 06 R118). -/
def State.resetPort (s : State) (p : Port) : State :=
  ((((s.dropRequests p).abandonAll p .portReset).dropHold p).releaseAll (s.viewsOfPort p)).resetPlain p

/-! ### Hard reset (02 R42 and the blocks' own rules) -/

/-- A port after the assertion of the hard reset line: nothing queued or in service (02 R42); the level of its own line and the
record of its responses stand. -/
def PortState.hardReset (x : PortState) : PortState := { x with queue := [], service := .fresh }

/-- The memory port after the assertion of the hard reset line (06 R120): the tag counter keeps its value. -/
def MemPort.hardReset (m : MemPort) : MemPort :=
  { MemPort.initial with tagCounter := m.tagCounter, issued := m.issued }

/-- The part after the assertion of the hard reset line (01 R15, R22; 02 R42; 03 R67; 04 R84; 05 R108; 06 R120; 07 R121, R137;
08 R154). -/
def State.hardReset (s : State) : State :=
  { State.reset with
    pending := s.pending
    hardResetLine := true
    ports := ⟨s.ports.u0.hardReset, s.ports.u1.hardReset, s.ports.u2.hardReset⟩
    mem := s.mem.hardReset
    choices := s.choices }

end Sys2Proof.Machine
end

