-- ==== Sys2Proof/Machine/Frames.lean ====
section
/-! DEFINITION. The management link's commands and frames (08): codes and parameters, execution, openers, bytes, the judgement of
a COMMAND frame, and a command sent as a whole frame. -/

namespace Sys2Proof.Machine

/-! ### Commands (08 R150) -/

/-- The fifteen commands of the link with their parameters as sent (08 R150). -/
inductive Command where
  | identify
  | defineRegion (d : DefineParams)
  | activate (region : Byte)
  | retire (region mode : Byte)
  | readRegion (region : Byte)
  | clearRegion (region : Byte)
  | readRecord (region : Byte) (record : Half)
  | clearTorn (region : Byte) (record : Half)
  | setWatch (w : WatchParams)
  | clearWatch (watch : Byte)
  | readWatch (watch : Byte)
  | readEvents (maximum : Byte)
  | setEventMasks (queueMask : Byte) (attentionMask : Half)
  | flushPort (port : Byte)
  | restart
deriving DecidableEq, Repr

/-- A command's code (08 R150). -/
def codeOfCommand : Command → Byte
  | .identify => 0x01
  | .defineRegion _ => 0x10
  | .activate _ => 0x11
  | .retire _ _ => 0x12
  | .readRegion _ => 0x13
  | .clearRegion _ => 0x14
  | .readRecord _ _ => 0x20
  | .clearTorn _ _ => 0x21
  | .setWatch _ => 0x30
  | .clearWatch _ => 0x31
  | .readWatch _ => 0x32
  | .readEvents _ => 0x40
  | .setEventMasks _ _ => 0x41
  | .flushPort _ => 0x50
  | .restart => 0x51

/-- A command's parameter bytes (08 R157 to R161). -/
def paramBytes : Command → List Byte
  | .identify => []
  | .defineRegion d => defineBytes d
  | .activate r => [r]
  | .retire r m => [r, m]
  | .readRegion r => [r]
  | .clearRegion r => [r]
  | .readRecord r k => r :: bytes2 k
  | .clearTorn r k => r :: bytes2 k
  | .setWatch w => watchParamBytes w
  | .clearWatch w => [w]
  | .readWatch w => [w]
  | .readEvents n => [n]
  | .setEventMasks q a => q :: bytes2 a
  | .flushPort p => [p]
  | .restart => []

/-- The bytes of a command's frame after the opener: code, parameters, check (08, 8.2). -/
def commandBytes (c : Command) : List Byte :=
  let body := codeOfCommand c :: paramBytes c
  body ++ [crc8 body]

/-- How many parameter bytes a known code has (08 R150). -/
def paramCount (code : Byte) : Option Nat :=
  match code.toNat with
  | 0x01 => some 0
  | 0x10 => some 21
  | 0x11 => some 1
  | 0x12 => some 2
  | 0x13 => some 1
  | 0x14 => some 1
  | 0x20 => some 3
  | 0x21 => some 3
  | 0x30 => some 15
  | 0x31 => some 1
  | 0x32 => some 1
  | 0x40 => some 1
  | 0x41 => some 3
  | 0x50 => some 1
  | 0x51 => some 0
  | _ => none

/-- The command of a code and its parameter bytes (08 R145, R157 to R161); none where the code is unknown or the number of bytes
is not the code's. -/
def parseCommand (code : Byte) (ps : List Byte) : Option Command :=
  match code.toNat, ps with
  | 0x01, [] => some .identify
  | 0x10, [r, b0, b1, b2, b3, rw, c0, c1, v0, v1, wp, rs, co, ro, vw, po, ac, u0, u1, l0, l1] =>
    some (.defineRegion
      { regionIndex := r, base := field4 b0 b1 b2 b3, recordWords := rw, recordCount := field2 c0 c1,
        versionBase := field2 v0 v1, writer := wp, readers := rs, closeOffset := co, releaseOffset := ro,
        versionWord := vw, policy := po, action := ac, updateLimit := field2 u0 u1, viewLifetime := field2 l0 l1 })
  | 0x11, [r] => some (.activate r)
  | 0x12, [r, m] => some (.retire r m)
  | 0x13, [r] => some (.readRegion r)
  | 0x14, [r] => some (.clearRegion r)
  | 0x20, [r, k0, k1] => some (.readRecord r (field2 k0 k1))
  | 0x21, [r, k0, k1] => some (.clearTorn r (field2 k0 k1))
  | 0x30, [w, r, k0, k1, o, m0, m1, m2, m3, f0, f1, f2, f3, c, e] =>
    some (.setWatch
      { watch := w, region := r, record := field2 k0 k1, offset := o, mask := field4 m0 m1 m2 m3,
        reference := field4 f0 f1 f2 f3, condition := c, mode := e })
  | 0x31, [w] => some (.clearWatch w)
  | 0x32, [w] => some (.readWatch w)
  | 0x40, [n] => some (.readEvents n)
  | 0x41, [q, a0, a1] => some (.setEventMasks q (field2 a0 a1))
  | 0x50, [p] => some (.flushPort p)
  | 0x51, [] => some .restart
  | _, _ => none

/-- Hand a command to its owner (08 R145). -/
def State.carryOut (s : State) : Command → State × Reply
  | .identify => (s, .done identityBytes)
  | .defineRegion d => s.doDefineRegion d
  | .activate r => s.doActivate r
  | .retire r m => s.doRetire r m
  | .readRegion r => s.doReadRegion r
  | .clearRegion r => s.doClearRegion r
  | .readRecord r k => s.doReadRecord r k
  | .clearTorn r k => s.doClearTorn r k
  | .setWatch w => s.doSetWatch w
  | .clearWatch w => s.doClearWatch w
  | .readWatch w => s.doReadWatch w
  | .readEvents n => s.doReadEvents n
  | .setEventMasks q a => s.doSetEventMasks q a
  | .flushPort p => s.doFlushPort p
  | .restart => s.doRestart

/-- Execute a command in the step of its judgement (08 R145): its owner's actions, the link in RESULT or EXECUTING, and what
follows in the same step. -/
def State.execute (s : State) (c : Command) : State :=
  (((s.carryOut c).1).conclude (s.carryOut c).2).settle

/-! ### The judgement (08 R143) -/

/-- What the judgement of a COMMAND frame finds (08 R143). -/
inductive Verdict where
  | result (c : Completion)
  | execute (c : Command)
deriving DecidableEq, Repr

/-- Judge the kept bytes and the byte count of a COMMAND frame (08 R143). -/
def judge (kept : List Byte) (n : Nat) : Verdict :=
  match kept with
  | [] => .result .fragment
  | code :: rest =>
    match paramCount code with
    | none => .result .badCode
    | some p =>
      if n < p + 2 then .result .fragment
      else if p + 2 < n then .result .length
      else if rest.getD p 0 != crc8 (code :: rest.take p) then .result .badCheck
      else match parseCommand code (rest.take p) with
        | some c => .execute c
        | none => .result .badCode

/-- Chip select rises on a COMMAND frame taken in IDLE (08 R143). -/
def State.endReceiving (s : State) : State :=
  match s.link.state with
  | .idle => s
  | .executing _ => s
  | .result _ _ => s
  | .receiving kept n =>
    match judge kept n with
    | .result c => s.formResult c []
    | .execute c => s.execute c

/-! ### The link status record (08 R148, R156) -/

/-- Result bytes remaining (08 R148). -/
def bytesRemaining : LinkState → Nat
  | .idle => 0
  | .receiving _ _ => 0
  | .executing _ => 0
  | .result bytes pos => bytes.length - pos

/-- The seven bytes of the link status record and their check (08 R148, R156). -/
def statusBytes (s : State) : List Byte :=
  let body := [codeOfLinkState s.link.state] ++ bytes2 (halfOf (bytesRemaining s.link.state)) ++
    [codeOfRefusal s.link.lastRefusal, byteOf s.events.queue.length, byteOf s.events.lost,
      if s.events.attention then 0x01 else 0x00]
  body ++ [crc8 body]

/-! ### Bytes on the wire (08 R138, R140) -/

/-- The treatment of a frame, fixed at its opener (08 R140, R141), chip select having just fallen. In RECEIVING no opener can arrive
(08 R139; log 20): such a frame presents 0x00 and changes nothing. -/
def State.takeOpener (s : State) (b : Byte) : State :=
  if b = 0x3C then
    match s.link.state with
    | .idle => (s.setLinkState (.receiving [] 0)).setFrame (some .receiving)
    | .receiving _ _ => s.setFrame (some .silent)
    | .executing _ => (s.setLastRefusal .busy).setFrame (some .silent)
    | .result _ _ => (s.setLastRefusal .resultPending).setFrame (some .silent)
  else if b = 0x5A then
    match s.link.state with
    | .idle => s.setFrame (some .silent)
    | .receiving _ _ => s.setFrame (some .silent)
    | .executing _ => s.setFrame (some .silent)
    | .result _ _ => s.setFrame (some .delivering)
  else if b = 0x69 then
    match s.link.state with
    | .idle => (s.setLastRefusal .none).setFrame (some (.status (statusBytes s)))
    | .receiving _ _ => s.setFrame (some .silent)
    | .executing _ => (s.setLastRefusal .none).setFrame (some (.status (statusBytes s)))
    | .result _ _ => (s.setLastRefusal .none).setFrame (some (.status (statusBytes s)))
  else if b = 0x96 then
    match s.link.state with
    | .idle => s.setFrame (some .silent)
    | .receiving _ _ => s.setFrame (some .silent)
    | .executing _ => (s.setLastRefusal .busy).setFrame (some .silent)
    | .result _ _ => s.setFrame (some .abandoning)
  else (s.setLastRefusal .badOpener).setFrame (some .silent)

/-- The byte the part presents next on SPI data out (08 R138, R147, R148). -/
def presentedByte (l : Link) : Byte :=
  match l.frame with
  | some .delivering =>
    match l.state with
    | .result bytes pos => bytes.getD pos 0
    | .idle => 0
    | .receiving _ _ => 0
    | .executing _ => 0
  | some (.status rest) => rest.headD 0
  | some .receiving => 0
  | some .abandoning => 0
  | some .silent => 0
  | some .noFrame => 0
  | none => 0

/-- One complete byte after the opener, clocked whole while chip select is low (08 R142, R147, R148). While it is high no bit is
taken (09 R166). -/
def State.clockByte (s : State) (b : Byte) : State :=
  match s.link.frame with
  | none => s
  | some .receiving =>
    match s.link.state with
    | .receiving kept n =>
      (s.present (zeros 8)).setLinkState (.receiving (if n < 23 then kept ++ [b] else kept) (n + 1))
    | .idle => s.present (zeros 8)
    | .executing _ => s.present (zeros 8)
    | .result _ _ => s.present (zeros 8)
  | some .delivering =>
    match s.link.state with
    | .result bytes pos =>
      (s.present (bitsOf (presentedByte s.link))).setLinkState
        (.result bytes (if pos < bytes.length then pos + 1 else pos))
    | .idle => s.present (zeros 8)
    | .executing _ => s.present (zeros 8)
    | .receiving _ _ => s.present (zeros 8)
  | some (.status rest) => (s.present (bitsOf (presentedByte s.link))).setFrame (some (.status rest.tail))
  | some .abandoning => s.present (zeros 8)
  | some .silent => s.present (zeros 8)
  | some .noFrame => s.present (zeros 8)

/-- The opener byte: chip select falls and the byte completes (08 R138). If chip select is low already it is one more byte of the
period (log 11). -/
def State.clockOpener (s : State) (b : Byte) : State :=
  match s.link.frame with
  | some _ => s.clockByte b
  | none => (s.setLink { s.link with presented := zeros 8 }).takeOpener b

/-- A byte cut short after some bits: they are presented and the byte is discarded (08 R138, R147). -/
def State.clockCut (s : State) (n : Nat) : State :=
  match s.link.frame with
  | none => s
  | some _ => s.present ((bitsOf (presentedByte s.link)).take n)

/-- Chip select rises on a frame that delivered result bytes (08 R147). -/
def State.endDelivering (s : State) : State :=
  match s.link.state with
  | .result bytes pos => if bytes.length ≤ pos then s.setLinkState .idle else s
  | .idle => s
  | .receiving _ _ => s
  | .executing _ => s

/-- Chip select rises on an ABANDON frame whose opener found the link in RESULT (08 R149). -/
def State.endAbandoning (s : State) : State :=
  match s.link.state with
  | .result _ _ => s.setLinkState .idle
  | .idle => s
  | .receiving _ _ => s
  | .executing _ => s

/-- Chip select rises (08 R138): the frame ends by its treatment. -/
def State.raise (s : State) : State :=
  match s.link.frame with
  | none => s
  | some .receiving => (s.setFrame none).endReceiving
  | some .delivering => (s.setFrame none).endDelivering
  | some .abandoning => (s.setFrame none).endAbandoning
  | some (.status _) => s.setFrame none
  | some .silent => s.setFrame none
  | some .noFrame => s.setFrame none

/-- The part of a run of a frame that clocks its bytes. -/
def State.clockBytes (s : State) (bytes : List Byte) : State := bytes.foldl State.clockByte s

/-- Chip select falls and rises inside the opener byte, after some bits (08 R138): they are presented as 0 and discarded, and the frame
has no effect. If chip select is low already they are a cut byte of the period (log 11). -/
def State.shortOpener (s : State) (n : Nat) : State :=
  match s.link.frame with
  | some _ => (s.clockCut n).raise
  | none => s.setLink { s.link with presented := zeros n }

/-- The end of a run of a frame: the cut bits, if chip select rises, and the rise. -/
def State.endRun (s : State) (f : FramePart) : State := if f.ends then (s.clockCut f.cut.val).raise else s

/-- While the hard reset line is asserted the link takes no byte and presents 0x00 (08 R154). -/
def State.presentInReset (s : State) (f : FramePart) : State :=
  s.setLink { s.link with
    presented := (match f.opens with | .goesOn => s.link.presented | .opener => zeros 8 | .shortOpener => []) ++
      zeros (8 * f.bytes.length + (if f.ends then f.cut.val else 0)) }

/-- A run of a frame with a given opener byte (08 R138 to R149, R154). -/
def State.frame (s : State) (opener : Byte) (f : FramePart) : State :=
  if s.hardResetLine then s.presentInReset f
  else match f.opens with
    | .goesOn => (s.clockBytes f.bytes).endRun f
    | .opener => ((s.clockOpener opener).clockBytes f.bytes).endRun f
    | .shortOpener => s.shortOpener f.cut.val

/-! ### A command sent as one whole frame -/

/-- The step of a whole, error-free COMMAND frame that carries a command (08 R140, R143, R145; log 4): taken and executed in IDLE,
refused in EXECUTING and RESULT; the part presents 0x00 on every byte. While chip select is low no frame can begin, and its
bytes go to the period in progress (log 11). -/
def State.sendCommand (s : State) (c : Command) : State :=
  if s.hardResetLine then s.presentInReset (.whole (commandBytes c))
  else match s.link.frame with
    | some _ => s.frame 0x3C (.whole (commandBytes c))
    | none =>
      let t := s.setLink { s.link with presented := zeros (8 * (1 + (commandBytes c).length)) }
      match s.link.state with
      | .idle => t.execute c
      | .receiving _ _ => t
      | .executing _ => t.setLastRefusal .busy
      | .result _ _ => t.setLastRefusal .resultPending

end Sys2Proof.Machine
end

