-- ==== Sys2Proof/Machine/Lines.lean ====
section
/-! DEFINITION. Meanings of the commands that come on lines and bundles, and of the blocks' own steps. -/

namespace Sys2Proof.Machine

/-! ### Lines -/

/-- HARD_RESET (02 R42 and every block's hard-reset rule): the assertion of the hard reset line. -/
def execHardReset (s : State) : Host.Outcome State Fault Refusal := .next s.hardReset

/-- HARD_RESET_DEASSERT (08 R154; 02 R42, 06 R120, 07 R121): the line falls; if chip select is low then, the rest of its period is no
frame. A line that is not asserted cannot fall (log 6). -/
def execHardResetDeassert (chipSelectLow : Bool) (s : State) : Host.Outcome State Fault Refusal :=
  .next (if s.hardResetLine then
    (s.setHardResetLine false).setFrame (if chipSelectLow then some .noFrame else none) else s)

/-- PORT_RESET (02 R38, R39; 03 R63; 05 R104; 06 R118): the assertion of a port-reset line; then the other ports' held writes are
examined. -/
def execPortReset (p : Port) (s : State) : Host.Outcome State Fault Refusal :=
  .next ((s.resetPort p).examineHolds).settle

/-- PORT_RESET_DEASSERT (02 R38): the port takes requests again, into an empty queue. -/
def execPortResetDeassert (p : Port) (s : State) : Host.Outcome State Fault Refusal :=
  .next (s.setPort p { s.port p with resetLine := false })

/-! ### Timebase and timers -/

/-- While a region is ACTIVATING, one entry of its range becomes version 0 and CLEAN; with the last of them the region goes to
ACTIVE and ACTIVATE completes, in the same step (01 R8). -/
def State.fillEntry (s : State) : State :=
  match s.link.state with
  | .idle => s
  | .receiving _ _ => s
  | .result _ _ => s
  | .executing e =>
    match e with
    | .activate r n => ((s.setEntry r n .initial).setLinkState (.executing (.activate r (n + 1)))).completeLong
    | .retire _ _ _ _ => s
    | .flushPort _ _ _ => s
    | .restart _ _ _ _ _ _ => s

/-- The expiry of a GATHERING buffer (03 R60): by the region's expiry action it goes to FREE or closes as a partial update, and
UPDATE_EXPIRED is posted; then the held writes are examined. -/
def State.expireBuffer (s : State) (b : BufId) : State :=
  let x := s.buffer b
  let action := (s.definition x.region).action
  let t := match action with
    | .discard => s.freeGathering b
    | .close => s.closeBuffer b
  (t.post (.updateExpired action) x.region x.writer x.record (s.version x.region x.record)).examineHolds

/-- The expiry of a HELD view (05 R100): it is released, and VIEW_EXPIRED is posted with the view's version. -/
def State.expireView (s : State) (p : Port) (v : ViewIx) : State :=
  let x := s.view p v
  (s.releaseView p v).post .viewExpired x.region p x.record x.version

/-- A port's held write, if it has one (03, 3.5.1). -/
def State.heldOf (s : State) (p : Port) : Option HeldWrite := s.pool.holds.find? fun h => h.port = p

/-- The hold limit of a port's held write (03 R57): it ends REFUSED, with WRITE_REFUSED. -/
def State.limitHold (s : State) (p : Port) : State :=
  match s.heldOf p with
  | none => s
  | some h => s.refuseHold .holdLimit h

/-- The timers of the part (07 R122): the hold limit of each port's held write, each buffer's update limit, each view's lifetime, and
the memory timeout. -/
inductive Timer where
  | hold (p : Port)
  | update (b : BufId)
  | view (p : Port) (v : ViewIx)
  | memory
deriving DecidableEq, Repr

/-- Every timer. -/
def allTimers : List Timer :=
  allPorts.map .hold ++ allBuffers.map .update ++ allPortViews.map (fun pv => .view pv.1 pv.2) ++ [.memory]

/-- A timer runs, and expires in this microsecond (07 R122; 03 R57, R59; 05 R100; 06 R114). -/
def State.timerDue (s : State) : Timer → Bool
  | .hold p => match s.heldOf p with
    | none => false
    | some h => due s.timebase h.holdTime holdLimitMicros
  | .update b =>
    let x := s.buffer b
    let limit := (s.definition x.region).updateLimit
    x.state = .gathering && limit != 0 && due s.timebase x.openingTime limit
  | .view p v =>
    let x := s.view p v
    let lifetime := (s.definition x.region).viewLifetime
    x.state = .held && lifetime != 0 && due s.timebase x.completeTime lifetime
  | .memory => match s.mem.outstanding with
    | none => false
    | some t => due s.timebase t.grantTime memoryTimeoutMicros

/-- What a timer's expiry does, with what follows in the same step. -/
def State.expire (s : State) : Timer → State
  | .hold p => (s.limitHold p).settle
  | .update b => (s.expireBuffer b).settle
  | .view p v => (s.expireView p v).settle
  | .memory => s.memoryTimeout.settle

/-- A timer's own row: it expires in its microsecond, and in any other nothing is due (log 6, log 7). -/
def State.expireIfDue (s : State) (x : Timer) : State := if s.timerDue x then s.expire x else s

/-- The timers due in this microsecond. -/
def State.dueTimers (s : State) : List Timer := allTimers.filter s.timerDue

/-- Expire the timers that are due, until none is; where several are, which is first is a free choice (log 9). -/
def runTimers : Nat → State → State
  | 0, s => s
  | n + 1, s =>
    match s.dueTimers with
    | [] => s
    | [x] => runTimers n (s.expire x)
    | x :: y :: xs =>
      let l := x :: y :: xs
      runTimers n ((s.setChoices (s.choices + 1)).expire (l.getD (Config.freeChoice s.choices % l.length) x))

/-- No timer is left due when its microsecond ends: each that no row of its own has taken expires now (07 R122; log 7). -/
def State.expireDue (s : State) : State := runTimers allTimers.length s

/-- A period of the reference (07 R121): the microsecond that ends leaves no timer due (R122), the timebase advances, and an ACTIVATE that
executes fills an entry (01 R8). While the hard reset line is asserted the timebase holds at 0. -/
def State.tick (s : State) : State :=
  if s.hardResetLine then s
  else let t := s.expireDue
    (t.setTimebase (t.timebase + 1)).fillEntry

/-- TIMEBASE_TICK (07 R121, R122, 01 R8). -/
def execTimebaseTick (s : State) : Host.Outcome State Fault Refusal := .next s.tick

/-- HOLD_LIMIT (03 R57): in the microsecond 500 µs after its hold time a held write ends REFUSED; the router goes on. -/
def execHoldLimit (p : Port) (s : State) : Host.Outcome State Fault Refusal := .next (s.expireIfDue (.hold p))

/-- UPDATE_EXPIRY (03 R59, R60). -/
def execUpdateExpiry (b : BufId) (s : State) : Host.Outcome State Fault Refusal := .next (s.expireIfDue (.update b))

/-- VIEW_EXPIRED (05 R100). -/
def execViewExpired (p : Port) (v : ViewIx) (s : State) : Host.Outcome State Fault Refusal :=
  .next (s.expireIfDue (.view p v))

/-! ### Upstream ports -/

/-- The port can take a request now: neither reset line is asserted and its queue holds fewer than 8 (02 R25). -/
def State.canTake (s : State) (p : Port) : Bool :=
  !s.hardResetLine && !(s.port p).resetLine && (s.port p).queue.length < 8

/-- REQUEST_TAKEN (02 R25, R26): the request joins the tail, and enters service at once if the queue was empty. A request the port
does not take stays on the bundle with its master, and so does one the bundle cannot carry (log 10). -/
def execRequestTaken (p : Port) (r : Request) (s : State) : Host.Outcome State Fault Refusal :=
  .next (if s.canTake p && r.wellFormed then
    (s.setPort p { s.port p with queue := (s.port p).queue ++ [r] }).settle else s)

/-! ### Memory port and engines -/

/-- MEMORY_GRANT (06 R111); the port grants nothing while the hard reset line is asserted (06 R120). -/
def execMemoryGrant (s : State) : Host.Outcome State Fault Refusal := .next (if s.hardResetLine then s else s.grant)

/-- MEMORY_ANSWER (06 R113, R114, R115). -/
def execMemoryAnswer (tag : Byte) (a : MemAnswer) (s : State) : Host.Outcome State Fault Refusal :=
  .next (s.memoryAnswer tag a).settle

/-- MEMORY_TIMEOUT (06 R114). -/
def execMemoryTimeout (s : State) : Host.Outcome State Fault Refusal := .next (s.expireIfDue .memory)

/-- COMMIT_TAKE (04 R70). -/
def execCommitTake (s : State) : Host.Outcome State Fault Refusal := .next s.takeCommit

/-- CAPTURE_REQUEST (05 R95). -/
def execCaptureRequest (s : State) : Host.Outcome State Fault Refusal := .next s.requestCapture

end Sys2Proof.Machine
end

