-- ==== Sys2Proof/Machine/LinkMeanings.lean ====
section
/-! DEFINITION. Meanings of the management link's frames, of the fifteen commands sent over it, and of the completions of the four
long ones. -/

namespace Sys2Proof.Machine

/-! ### Frames (08 R140) -/

/-- COMMAND_FRAME (08 R142, R143): opener 0x3C. -/
def execCommandFrame (f : FramePart) (s : State) : Host.Outcome State Fault Refusal := .next (s.frame 0x3C f)

/-- RESULT_FRAME (08 R147): opener 0x5A. -/
def execResultFrame (f : FramePart) (s : State) : Host.Outcome State Fault Refusal := .next (s.frame 0x5A f)

/-- STATUS_FRAME (08 R148): opener 0x69. -/
def execStatusFrame (f : FramePart) (s : State) : Host.Outcome State Fault Refusal := .next (s.frame 0x69 f)

/-- ABANDON_FRAME (08 R149): opener 0x96. -/
def execAbandonFrame (f : FramePart) (s : State) : Host.Outcome State Fault Refusal := .next (s.frame 0x96 f)

/-- BAD_OPENER (08 R140): any other opener; the frame is read by the opener's value. -/
def execBadOpener (opener : Byte) (f : FramePart) (s : State) : Host.Outcome State Fault Refusal :=
  .next (s.frame opener f)

/-! ### Commands (08 R145, R150) -/

/-- IDENTIFY (08 R151). -/
def execIdentify (s : State) : Host.Outcome State Fault Refusal := .next (s.sendCommand .identify)

/-- DEFINE_REGION (01 R3). -/
def execDefineRegion (d : DefineParams) (s : State) : Host.Outcome State Fault Refusal :=
  .next (s.sendCommand (.defineRegion d))

/-- ACTIVATE (01 R7). -/
def execActivate (r : Byte) (s : State) : Host.Outcome State Fault Refusal := .next (s.sendCommand (.activate r))

/-- RETIRE (01 R10). -/
def execRetire (r m : Byte) (s : State) : Host.Outcome State Fault Refusal := .next (s.sendCommand (.retire r m))

/-- READ_REGION (01 R13). -/
def execReadRegion (r : Byte) (s : State) : Host.Outcome State Fault Refusal := .next (s.sendCommand (.readRegion r))

/-- CLEAR_REGION (01 R14). -/
def execClearRegion (r : Byte) (s : State) : Host.Outcome State Fault Refusal := .next (s.sendCommand (.clearRegion r))

/-- READ_RECORD (01 R21). -/
def execReadRecord (r : Byte) (k : Half) (s : State) : Host.Outcome State Fault Refusal :=
  .next (s.sendCommand (.readRecord r k))

/-- CLEAR_TORN (01 R20). -/
def execClearTorn (r : Byte) (k : Half) (s : State) : Host.Outcome State Fault Refusal :=
  .next (s.sendCommand (.clearTorn r k))

/-- SET_WATCH (07 R124). -/
def execSetWatch (w : WatchParams) (s : State) : Host.Outcome State Fault Refusal := .next (s.sendCommand (.setWatch w))

/-- CLEAR_WATCH (07 R126). -/
def execClearWatch (w : Byte) (s : State) : Host.Outcome State Fault Refusal := .next (s.sendCommand (.clearWatch w))

/-- READ_WATCH (07 R127). -/
def execReadWatch (w : Byte) (s : State) : Host.Outcome State Fault Refusal := .next (s.sendCommand (.readWatch w))

/-- READ_EVENTS (07 R132). -/
def execReadEvents (n : Byte) (s : State) : Host.Outcome State Fault Refusal := .next (s.sendCommand (.readEvents n))

/-- SET_EVENT_MASKS (07 R133). -/
def execSetEventMasks (q : Byte) (a : Half) (s : State) : Host.Outcome State Fault Refusal :=
  .next (s.sendCommand (.setEventMasks q a))

/-- FLUSH_PORT (02 R40). -/
def execFlushPort (p : Byte) (s : State) : Host.Outcome State Fault Refusal := .next (s.sendCommand (.flushPort p))

/-- RESTART (08 R152). -/
def execRestart (s : State) : Host.Outcome State Fault Refusal := .next (s.sendCommand .restart)

/-! ### Completions of long commands (log 5) -/

/-- The long commands. -/
inductive LongCommand where
  | activate | retire | flushPort | restart
deriving DecidableEq, Repr

/-- Which long command executes. -/
def Executing.command : Executing → LongCommand
  | .activate _ _ => .activate
  | .retire _ _ _ _ => .retire
  | .flushPort _ _ _ => .flushPort
  | .restart _ _ _ _ _ _ => .restart

/-- The link is executing a command of this kind. -/
def State.executes (s : State) (k : LongCommand) : Bool :=
  match s.link.state with
  | .executing e => e.command = k
  | .idle => false
  | .receiving _ _ => false
  | .result _ _ => false

/-- The arrival in whose step the completion falls (01 R8, R12; 02 R41; 08 R153). -/
def State.arrive (s : State) : Cause → State
  | .standing => s.completeLong
  | .tick => s.tick
  | .answer tag a => (s.memoryAnswer tag a).settle
  | .timeout => s.expireIfDue .memory

/-- The step in which a long command of this kind completes by an arrival: the arrival's step, if the command executes before it and
no longer after it; else no such completion falls, and nothing changes (log 5, log 6). -/
def State.completing (s : State) (k : LongCommand) (c : Cause) : State :=
  if s.executes k && !(s.arrive c).executes k then s.arrive c else s

/-- ACTIVATE_COMPLETE (01 R8). -/
def execActivateComplete (c : Cause) (s : State) : Host.Outcome State Fault Refusal := .next (s.completing .activate c)

/-- DRAIN_COMPLETE (01 R12). -/
def execDrainComplete (c : Cause) (s : State) : Host.Outcome State Fault Refusal := .next (s.completing .retire c)

/-- FLUSH_PORT_COMPLETE (02 R41). -/
def execFlushPortComplete (c : Cause) (s : State) : Host.Outcome State Fault Refusal :=
  .next (s.completing .flushPort c)

/-- RESTART_COMPLETE (08 R153). -/
def execRestartComplete (c : Cause) (s : State) : Host.Outcome State Fault Refusal := .next (s.completing .restart c)

end Sys2Proof.Machine
end

