-- ==== Sys2Proof/Machine/Dispatch.lean ====
section
/-! DEFINITION. One arm per command: each calls its meaning. -/

namespace Sys2Proof.Machine

def exec (i : Instr) (s : State) : Host.Outcome State Fault Refusal :=
  match i with
  | .hardReset => Sys2Proof.Machine.execHardReset s
  | .hardResetDeassert c => Sys2Proof.Machine.execHardResetDeassert c s
  | .portReset p => Sys2Proof.Machine.execPortReset p s
  | .portResetDeassert p => Sys2Proof.Machine.execPortResetDeassert p s
  | .timebaseTick => Sys2Proof.Machine.execTimebaseTick s
  | .activateComplete c => Sys2Proof.Machine.execActivateComplete c s
  | .requestTaken p r => Sys2Proof.Machine.execRequestTaken p r s
  | .holdLimit p => Sys2Proof.Machine.execHoldLimit p s
  | .updateExpiry b => Sys2Proof.Machine.execUpdateExpiry b s
  | .memoryGrant => Sys2Proof.Machine.execMemoryGrant s
  | .memoryAnswer t a => Sys2Proof.Machine.execMemoryAnswer t a s
  | .memoryTimeout => Sys2Proof.Machine.execMemoryTimeout s
  | .commitTake => Sys2Proof.Machine.execCommitTake s
  | .drainComplete c => Sys2Proof.Machine.execDrainComplete c s
  | .captureRequest => Sys2Proof.Machine.execCaptureRequest s
  | .viewExpired p v => Sys2Proof.Machine.execViewExpired p v s
  | .commandFrame f => Sys2Proof.Machine.execCommandFrame f s
  | .resultFrame f => Sys2Proof.Machine.execResultFrame f s
  | .statusFrame f => Sys2Proof.Machine.execStatusFrame f s
  | .abandonFrame f => Sys2Proof.Machine.execAbandonFrame f s
  | .badOpener o f => Sys2Proof.Machine.execBadOpener o f s
  | .identify => Sys2Proof.Machine.execIdentify s
  | .defineRegion d => Sys2Proof.Machine.execDefineRegion d s
  | .activate r => Sys2Proof.Machine.execActivate r s
  | .retire r m => Sys2Proof.Machine.execRetire r m s
  | .readRegion r => Sys2Proof.Machine.execReadRegion r s
  | .clearRegion r => Sys2Proof.Machine.execClearRegion r s
  | .readRecord r k => Sys2Proof.Machine.execReadRecord r k s
  | .clearTorn r k => Sys2Proof.Machine.execClearTorn r k s
  | .setWatch w => Sys2Proof.Machine.execSetWatch w s
  | .clearWatch w => Sys2Proof.Machine.execClearWatch w s
  | .readWatch w => Sys2Proof.Machine.execReadWatch w s
  | .readEvents n => Sys2Proof.Machine.execReadEvents n s
  | .setEventMasks q a => Sys2Proof.Machine.execSetEventMasks q a s
  | .flushPort p => Sys2Proof.Machine.execFlushPort p s
  | .flushPortComplete c => Sys2Proof.Machine.execFlushPortComplete c s
  | .restart => Sys2Proof.Machine.execRestart s
  | .restartComplete c => Sys2Proof.Machine.execRestartComplete c s

end Sys2Proof.Machine
end

