-- ==== Sys2Proof/Safety.lean ====
section
/-! DEFINITION. What claims say of the part: rest between steps, the link's readiness and its answers, and the invariants
that every step keeps. -/

namespace Sys2Proof.Machine

/-! ### Between steps -/

/-- Between steps no port's router can move, and no long command executes whose condition already holds: a step ends only
when both have come about (95: a step is whole; log 8). -/
structure State.AtRest (s : State) : Prop where
  routers : s.movable = []
  link : s.completeLong = s

/-- The link can take a COMMAND frame (08 R140): the hard reset line is not asserted, chip select is high and the link is
IDLE. -/
def State.linkReady (s : State) : Prop :=
  s.hardResetLine = false ∧ s.link.frame = none ∧ s.link.state = .idle

/-! ### What the link holds after a command's frame (08 R145, R146) -/

/-- How many bytes a command's frame has, its opener included (08 R150). -/
def frameLength (c : Command) : Nat := 1 + (commandBytes c).length

/-- The state with this command's result formed and 0x00 presented on every byte of its frame; nothing else changed. -/
def State.returns (s : State) (c : Command) (code : Completion) (data : List Byte) : State :=
  s.setLink { s.link with state := .result (resultBytes code data) 0, presented := zeros (8 * frameLength c) }

/-- The state with this long command taken; nothing else changed. -/
def State.takes (s : State) (c : Command) (e : Executing) : State :=
  s.setLink { s.link with state := .executing e, presented := zeros (8 * frameLength c) }

/-- The state after a frame of this many bytes that the link refused or ignored (08 R140, R141). -/
def State.refuses (s : State) (bytes : Nat) (x : LastRefusal) : State :=
  s.setLink { s.link with lastRefusal := x, presented := zeros (8 * bytes) }

/-- The command row that a command of the link is. -/
def rowOf : Command → Instr
  | .identify => .identify
  | .defineRegion d => .defineRegion d
  | .activate r => .activate r
  | .retire r m => .retire r m
  | .readRegion r => .readRegion r
  | .clearRegion r => .clearRegion r
  | .readRecord r k => .readRecord r k
  | .clearTorn r k => .clearTorn r k
  | .setWatch w => .setWatch w
  | .clearWatch w => .clearWatch w
  | .readWatch w => .readWatch w
  | .readEvents n => .readEvents n
  | .setEventMasks q a => .setEventMasks q a
  | .flushPort p => .flushPort p
  | .restart => .restart

/-! ### Requests in service -/

/-- The port can take this request at once into service: no reset line is asserted, its queue is empty, nothing is in service, and the
request is one the bundle carries that does not run past the top of the address space (02 R23, R25). -/
structure State.ServesAtOnce (s : State) (p : Port) (r : Request) : Prop where
  takes : s.canTake p = true
  empty : (s.port p).queue = []
  fresh : (s.port p).service = .fresh
  formed : r.wellFormed = true
  inside : r.address.toNat + 4 * (r.beats - 1) ≤ 0xFFFFFFFC

/-- Every word of the request lies in one record of one ACTIVE region, beat 0 at this spot (01 R5, 02 R27). -/
def State.Within (s : State) (r : Request) (x : Spot) : Prop :=
  ∀ k, k < r.beats → s.spotOf (beatAddress r k) = some { x with offset := x.offset + k }

/-- Every word of the request is plain (01 R6, 02 R27). -/
def State.PlainAll (s : State) (r : Request) : Prop := ∀ k, k < r.beats → s.spotOf (beatAddress r k) = none

/-- The state with this response returned by the port; nothing else changed. -/
def State.answered (s : State) (p : Port) (x : Response) : State :=
  s.setPort p { s.port p with responses := (s.port p).responses ++ [x] }

/-- The state with the request in service and its one piece handed to a path that has not given it an outcome. -/
def State.serving (s : State) (p : Port) (r : Request) (x : Option Spot) (w : Wait) : State :=
  s.setPort p { s.port p with queue := [r], service := { Service.fresh with piece := some ⟨r.beats, x, w⟩ } }

/-! ### Transactions -/

/-- The outstanding transaction is this requester's, its answers are handed on, and the answers after it are these, with no word
UNANSWERED: the transaction ends (06 R114). -/
structure State.Ends (s : State) (q : Requester) (tr : Transaction) (after : List Answer) : Prop where
  outstanding : s.mem.outstanding = some tr
  requester : tr.requester = q
  kept : tr.discard = false
  all : allAnswered after = true

/-- The arrival that ends a transaction, its row and its name as a long command's cause, and what it does to the answers: the last
answer, or the timeout in the microsecond 64 µs after the grant, which makes each word still UNANSWERED FAULT (06 R114). -/
def State.EndsBy (s : State) (tr : Transaction) (i : Instr) (k : Cause) (f : List Answer → List Answer) : Prop :=
  (∃ a, i = .memoryAnswer tr.tag a ∧ k = .answer tr.tag a ∧ f = fun as => answerFirst as (recorded tr.request a)) ∨
  (i = .memoryTimeout ∧ k = .timeout ∧ (s.timebase - tr.grantTime).toNat = 64 ∧
    f = fun as => as.map fun x => if x = .unanswered then .fault else x)

/-- How many places a requester stands after the ring pointer (06 R111). -/
def placesBehind (ring q : Requester) : Nat := (ringFrom ring).findIdx (· == q)

/-! ### Timers (07 R122) -/

/-- A timer runs and its time has come, as its own rule says (03 R57, R59; 05 R100; 06 R114). -/
def State.Due (s : State) : Timer → Prop
  | .hold p => ∃ h ∈ s.pool.holds, h.port = p ∧ (s.timebase - h.holdTime).toNat = 500
  | .update b =>
    (s.buffer b).state = .gathering ∧ (s.definition (s.buffer b).region).updateLimit ≠ 0 ∧
      (s.timebase - (s.buffer b).openingTime).toNat = (s.definition (s.buffer b).region).updateLimit
  | .view p v =>
    (s.view p v).state = .held ∧ (s.definition (s.view p v).region).viewLifetime ≠ 0 ∧
      (s.timebase - (s.view p v).completeTime).toNat = (s.definition (s.view p v).region).viewLifetime
  | .memory => ∃ tr, s.mem.outstanding = some tr ∧ (s.timebase - tr.grantTime).toNat = 64

/-- The row of a timer's expiry. -/
def rowOfTimer : Timer → Instr
  | .hold p => .holdLimit p
  | .update b => .updateExpiry b
  | .view p v => .viewExpired p v
  | .memory => .memoryTimeout

/-! ### Updates -/

/-- A buffer just opened by a port for a record, now (03 R43). -/
def State.opened (s : State) (p : Port) (x : Spot) : Buffer :=
  { state := .gathering, region := x.region, record := x.record, writer := p, image := Vector.replicate 16 0,
    mask := Vector.replicate 16 0, openingTime := s.timebase, waitCount := 0, preTorn := false }

/-- How many captures of a record are in flight (03 R50). -/
def State.inFlight (s : State) (r : RegionId) (record : Nat) : Nat :=
  (s.captures.filter fun c => c.region = r ∧ c.record = record).length

/-- The captures with a buffer entered in the hold set of each capture of a record (03 R50). -/
def State.capturesHolding (s : State) (r : RegionId) (record : Nat) (b : BufId) : List Capture :=
  s.captures.map fun c => if c.region = r ∧ c.record = record then { c with holdSet := c.holdSet ++ [b] } else c

/-- The event unit after one UPDATE_ABANDONED for each of these buffers, in order (03 R63, R64, R65). -/
def State.abandonEvents (s : State) (cause : AbandonCause) (l : List BufId) : EventUnit :=
  l.foldl (fun e b => e.post s.timebase (.updateAbandoned cause) (s.buffer b).region (s.buffer b).writer (s.buffer b).record
    (s.version (s.buffer b).region (s.buffer b).record)) s.events

/-- The beats of a request from one on lie in one record of one ACTIVE region, the first of them at this spot (02 R27). -/
def State.RestWithin (s : State) (r : Request) (k : Nat) (x : Spot) : Prop :=
  ∀ j, k + j < r.beats → s.spotOf (beatAddress r (k + j)) = some { x with offset := x.offset + j }

/-- Two spots lie in one record. -/
def sameRecord (x y : Spot) : Prop := x.region = y.region ∧ x.record = y.record

/-! ### Views -/

/-- The view of a port as it stands right after its opening for a record (05 R85, R89, R90, R91): the basis is the record's CLOSED and
COMMITTING buffers in close order, the version the entry's plus their number, and the torn indicator CLEAN when one of them covers the
record and is not pre-torn, else the entry's mark; each byte a basis buffer holds is the latest such buffer's, a word they hold whole is
filled, the version word is filled with the view's version, and no other word is. -/
structure State.JustOpened (s : State) (x : Spot) (v : View) : Prop where
  region : v.region = x.region
  record : v.record = x.record
  basis : v.basis = s.basisOf x.region x.record
  version : v.version = (s.entry x.region x.record).version + BitVec.ofNat 16 v.basis.length
  torn : v.torn = if ∃ b ∈ v.basis, covers (s.definition x.region) (s.buffer b).mask = true ∧ (s.buffer b).preTorn = false
    then .clean else (s.entry x.region x.record).torn
  startTime : v.startTime = s.timebase
  fill : ∀ k : Fin 16, cell v.fill k = decide ((s.definition x.region).versionWord = some k.val ∨
    (k.val < (s.definition x.region).recordWords ∧ (overlay (v.basis.map s.buffer) k.val).enables = 0xF))
  supplied : ∀ k : Fin 16, cell v.supplied k =
    if k.val < (s.definition x.region).recordWords then (overlay (v.basis.map s.buffer) k.val).enables else 0
  image : ∀ k : Fin 16, cell v.image k =
    if (s.definition x.region).versionWord = some k.val then v.version.setWidth 32
    else if k.val < (s.definition x.region).recordWords then (overlay (v.basis.map s.buffer) k.val).data else 0

/-- What a port answers a piece of `n` words from a view (05 R98): TORN if the view's indicator is, the version word the view's version,
any other word the view's image. -/
def State.viewResponse (s : State) (x : Spot) (n : Nat) (v : View) : Response :=
  ⟨if v.torn = .torn then .torn else .okay,
    (run x.offset n).map fun k =>
      if (s.definition x.region).versionWord = some k then v.version.setWidth 32 else cellD v.image k 0⟩

/-- A piece of `n` words from a spot includes its record's release word (05 R99). -/
def State.Releases (s : State) (x : Spot) (n : Nat) : Prop :=
  x.offset ≤ (s.definition x.region).releaseOffset ∧ (s.definition x.region).releaseOffset < x.offset + n

/-- Every word of a piece of `n` words from a spot is filled in a view (05 R98). -/
def FilledFor (v : View) (x : Spot) (n : Nat) : Prop := ∀ k, k < n → cellD v.fill (x.offset + k) false = true

/-- No piece waits on a view, and none awaits one (05 R88, R98). -/
def State.NoPieceNeedsAView (s : State) : Prop :=
  ∀ p x, (s.port p).service.piece = some x → x.wait ≠ .forView ∧ ∀ v, x.wait ≠ .onView v

/-! ### What a step leaves alone -/

/-- The routers' work changes none of these: the lines, the timebase, the region table, the commit engine, the memory
port but for pending requests, the link, and the waiting commands. -/
structure State.OutsideRouters (s t : State) : Prop where
  pending : t.pending = s.pending
  hardResetLine : t.hardResetLine = s.hardResetLine
  timebase : t.timebase = s.timebase
  regions : t.regions = s.regions
  engine : t.engine = s.engine
  link : t.link = s.link
  ring : t.mem.ring = s.mem.ring
  commit : t.mem.commit = s.mem.commit
  outstanding : t.mem.outstanding = s.mem.outstanding
  tagCounter : t.mem.tagCounter = s.mem.tagCounter
  issued : t.mem.issued = s.mem.issued
  watches : t.events.watches = s.events.watches
  queueMask : t.events.queueMask = s.events.queueMask
  attentionMask : t.events.attentionMask = s.events.attentionMask
  resetLines : ∀ p, (t.port p).resetLine = (s.port p).resetLine
  versions : ∀ k : Fin 4096, (cell t.versions k).version = (cell s.versions k).version

/-! ### Invariants -/

/-- The event unit's law (07 R130, R134): at most 32 events queued, the lost count at most 255, and the attention line as the
queue, the lost count and the attention mask give it. -/
structure EventUnit.Lawful (e : EventUnit) : Prop where
  queue_le : e.queue.length ≤ 32
  lost_le : e.lost ≤ 255
  line : e.attention = attentionOf e

/-- An UNUSED watch holds the UNUSED field values (07 R123). -/
def State.unusedWatchesBlank (s : State) : Prop :=
  ∀ i, (cell s.events.watches i).state = .unused → cell s.events.watches i = .unusedValues

/-- The values a stored definition may have (01, 1.1 table; R2). -/
structure Definition.Legal (d : Definition) : Prop where
  aligned : d.base.toNat % 4 = 0
  words : 1 ≤ d.recordWords ∧ d.recordWords ≤ 16
  count : 1 ≤ d.recordCount ∧ d.recordCount ≤ 4096
  versions : d.versionBase + d.recordCount ≤ 4096
  span : d.base.toNat + spanBytes d ≤ 2 ^ 32
  reader : d.readers.get d.writer = false
  close : d.closeOffset < d.recordWords
  release : d.releaseOffset < d.recordWords
  version : ∀ k, d.versionWord = some k → k < d.recordWords ∧ k ≠ d.closeOffset

/-- R2's checks, field by field (01 R2, R4; 08 R157): the parameters spell a legal definition. -/
structure PassesR2 (d : DefineParams) : Prop where
  base : d.base.toNat % 4 = 0
  words : 1 ≤ d.recordWords.toNat ∧ d.recordWords.toNat ≤ 16
  count : 1 ≤ d.recordCount.toNat ∧ d.recordCount.toNat ≤ 4096
  versions : d.versionBase.toNat ≤ 4095 ∧ d.versionBase.toNat + d.recordCount.toNat ≤ 4096
  writer : d.writer.toNat ≤ 2
  readers : d.readers.toNat < 8
  apart : d.readers.getLsbD d.writer.toNat = false
  offsets : d.closeOffset.toNat < d.recordWords.toNat ∧ d.releaseOffset.toNat < d.recordWords.toNat
  versionWord : d.versionWord = 0xFF ∨ d.versionWord.toNat < d.recordWords.toNat
  notClose : d.versionWord ≠ d.closeOffset
  names : d.policy.toNat ≤ 2 ∧ d.action.toNat ≤ 1
  span : d.base.toNat + 4 * d.recordWords.toNat * d.recordCount.toNat - 1 ≤ 0xFFFFFFFF

/-- Two spans share at least one byte address (01 R4, R7). -/
def shareAddress (d e : Definition) : Prop :=
  ∃ a, (d.base.toNat ≤ a ∧ a < d.base.toNat + 4 * d.recordWords * d.recordCount) ∧
    (e.base.toNat ≤ a ∧ a < e.base.toNat + 4 * e.recordWords * e.recordCount)

/-- Two version ranges share at least one entry (01 R4, R7). -/
def shareEntry (d e : Definition) : Prop :=
  ∃ k, (d.versionBase ≤ k ∧ k < d.versionBase + d.recordCount) ∧ (e.versionBase ≤ k ∧ k < e.versionBase + e.recordCount)

/-- The region table's laws (01 R7, R13, R15): an EMPTY entry holds the EMPTY values, any other a legal definition; no two
entries in ACTIVATING, ACTIVE or DRAINING share an address or a version entry; and the entry an ACTIVATE or RETIRE in execution
names is ACTIVATING or DRAINING. -/
structure State.RegionsLawful (s : State) : Prop where
  blank : ∀ r, (s.region r).state = .empty → s.definition r = .emptyValues
  legal : ∀ r, (s.region r).state ≠ .empty → (s.definition r).Legal
  apart : ∀ q r, q ≠ r → (s.region q).state.owning = true → (s.region r).state.owning = true →
    ¬ shareAddress (s.definition q) (s.definition r) ∧ ¬ shareEntry (s.definition q) (s.definition r)
  activating : ∀ r n, s.link.state = .executing (.activate r n) → (s.region r).state = .activating
  draining : ∀ r a c v, s.link.state = .executing (.retire r a c v) → (s.region r).state = .draining

/-- The buffer of the commit in flight (04 R68). -/
def CommitEngine.current : CommitEngine → Option BufId
  | .idle => none
  | .requesting job => some job.buffer
  | .writing job => some job.buffer

/-- The staging pool's laws (03 R45, R52; 04 R68): each port's gathering list holds its GATHERING buffers once each, at most
four; the close order holds the CLOSED and COMMITTING buffers once each; and the engine's current buffer is the one COMMITTING
buffer, if there is one. -/
structure State.PoolLawful (s : State) : Prop where
  gathering_iff : ∀ p b, b ∈ s.pool.gathering.get p ↔ (s.buffer b).state = .gathering ∧ (s.buffer b).writer = p
  gathering_nodup : ∀ p, (s.pool.gathering.get p).Nodup
  gathering_le : ∀ p, (s.pool.gathering.get p).length ≤ 4
  close_iff : ∀ b, b ∈ s.pool.closeOrder ↔ (s.buffer b).state = .closed ∨ (s.buffer b).state = .committing
  close_nodup : s.pool.closeOrder.Nodup
  engine_iff : ∀ b, (s.buffer b).state = .committing ↔ s.engine.current = some b

/-- The waits' law (03 R50, 05 R97): a hold set names CLOSED buffers, once each; and a CLOSED buffer's wait count is the number of
captures in flight whose hold set names it. -/
structure State.WaitsLawful (s : State) : Prop where
  closed : ∀ c ∈ s.captures, ∀ b ∈ c.holdSet, (s.buffer b).state = .closed
  nodup : ∀ c ∈ s.captures, c.holdSet.Nodup
  count : ∀ b, (s.buffer b).state = .closed →
    (s.buffer b).waitCount = s.captures.countP (fun c => c.holdSet.contains b)

/-- The view store's laws (05 R85, R86, R94): a port's use list holds its non-FREE views once each; no port has two non-FREE views
of one record; a capture that has a view fills a CAPTURING view of its record, no two the same, and every CAPTURING view has its
capture. -/
structure State.ViewsLawful (s : State) : Prop where
  use_iff : ∀ p v, v ∈ (s.views.get p).useList ↔ (s.view p v).state ≠ .free
  use_nodup : ∀ p, (s.views.get p).useList.Nodup
  unique : ∀ p v w, v ≠ w → (s.view p v).state ≠ .free → (s.view p w).state ≠ .free →
    ¬((s.view p v).region = (s.view p w).region ∧ (s.view p v).record = (s.view p w).record)
  fills : ∀ c ∈ s.captures, ∀ v, c.view = some v →
    (s.view c.port v).state = .capturing ∧ (s.view c.port v).region = c.region ∧ (s.view c.port v).record = c.record
  capturing : ∀ p v, (s.view p v).state = .capturing → ∃ c ∈ s.captures, c.fills p v = true
  distinct : s.captures.Pairwise fun c d => ∀ p v, ¬(c.fills p v = true ∧ d.fills p v = true)

/-- A port's queue holds at most eight requests, and with an empty queue it has nothing in service (02 R25); and held writes match the pieces their ports wait on (03, 3.5.1): one
per port at most, each the outstanding piece of the request in service, of at least one word and within the request. -/
structure State.PortsLawful (s : State) : Prop where
  fit : ∀ p, (s.port p).queue.length ≤ 8
  idle : ∀ p, (s.port p).queue = [] → (s.port p).service = .fresh
  ports : (s.pool.holds.map HeldWrite.port).Nodup
  piece : ∀ h ∈ s.pool.holds, ∃ r rest, (s.port h.port).queue = r :: rest ∧
    (s.port h.port).service.piece = some ⟨h.words.length, some h.spot, .held⟩ ∧
    1 ≤ h.words.length ∧ (s.port h.port).service.next + h.words.length ≤ r.beats

/-- A held write waits only while a staging limit stands in its way (03 R56): no buffer is FREE, or its port holds four GATHERING
buffers. -/
def State.HoldsWait (s : State) : Prop :=
  ∀ h ∈ s.pool.holds, (∀ b, (s.buffer b).state ≠ .free) ∨ 4 ≤ (s.pool.gathering.get h.port).length

/-- No timer that runs has passed its limit (07 R122; 03 R57, R59; 05 R100; 06 R114); and a view stands in an ACTIVE region, so that the
lifetime read is the one it started under (05 R100, R106). -/
structure State.TimersLawful (s : State) : Prop where
  hold : ∀ h ∈ s.pool.holds, (s.timebase - h.holdTime).toNat ≤ 500
  update : ∀ b, (s.buffer b).state = .gathering → (s.definition (s.buffer b).region).updateLimit ≠ 0 →
    (s.timebase - (s.buffer b).openingTime).toNat ≤ (s.definition (s.buffer b).region).updateLimit
  view : ∀ p v, (s.view p v).state = .held → (s.definition (s.view p v).region).viewLifetime ≠ 0 →
    (s.timebase - (s.view p v).completeTime).toNat ≤ (s.definition (s.view p v).region).viewLifetime
  memory : ∀ tr, s.mem.outstanding = some tr → (s.timebase - tr.grantTime).toNat ≤ 64
  owned : ∀ p v, (s.view p v).state ≠ .free → (s.region (s.view p v).region).state = .active

/-- The port's piece in service waits for its plain requester's transaction (02 R29, R33; 03 R53). -/
def State.AwaitsMemory (s : State) (p : Port) : Prop :=
  ∃ x, (s.port p).service.piece = some x ∧ (x.wait = .memory ∨ ∃ snap, x.wait = .readOwn snap)

/-- The memory port and its requesters' owners agree (06 R109): a pending or outstanding commit is the engine's in REQUESTING or
WRITING (04 R68, R75); only the capture at the front is not QUEUED, and a pending or outstanding capture is its own in REQUESTING or
READING (05 R94, R95); an owner's answers are its transaction's; and a plain requester's request or transaction, unless it is
discarded, is its port's piece's (06 R118), one of the two at a time. -/
structure State.OwnersLawful (s : State) : Prop where
  commitPending : s.mem.commit ≠ none → ∃ job, s.engine = .requesting job
  requesting : ∀ job, s.engine = .requesting job →
    job.answers = List.replicate job.words.length .unanswered ∧ ∃ a, s.mem.commit = some (.write a job.words)
  writing : ∀ job, s.engine = .writing job → ∃ tr, s.mem.outstanding = some tr ∧ tr.requester = .commit ∧ job.answers = tr.answers
  commitOut : ∀ tr, s.mem.outstanding = some tr → tr.requester = .commit → tr.discard = false ∧ ∃ job, s.engine = .writing job
  behind : ∀ c ∈ s.captures.tail, c.state = .queued
  captureRequesting : ∀ c ∈ s.captures, c.state = .requesting →
    c.answers = List.replicate c.count .unanswered ∧ ∃ a, s.mem.capture = some (.read a c.count)
  capturePending : s.mem.capture ≠ none → ∃ c ∈ s.captures, c.state = .requesting
  captureReading : ∀ c ∈ s.captures, c.state = .reading →
    ∃ tr, s.mem.outstanding = some tr ∧ tr.requester = .capture ∧ c.answers = tr.answers
  captureOut : ∀ tr, s.mem.outstanding = some tr → tr.requester = .capture →
    tr.discard = false ∧ ∃ c ∈ s.captures, c.state = .reading
  plainPending : ∀ p, s.mem.pendingOf (.plain p) ≠ none → s.AwaitsMemory p
  plainOut : ∀ tr p, s.mem.outstanding = some tr → tr.requester = .plain p → tr.discard = false →
    s.AwaitsMemory p ∧ s.mem.pendingOf (.plain p) = none

/-- Updates belong to ACTIVE regions and their writer ports (03 R43, R45, R58): so do held writes. -/
structure State.UpdatesOwned (s : State) : Prop where
  buffers : ∀ b, (s.buffer b).state = .gathering →
    (s.region (s.buffer b).region).state = .active ∧ (s.definition (s.buffer b).region).writer = (s.buffer b).writer
  holds : ∀ h ∈ s.pool.holds,
    (s.region h.spot.region).state = .active ∧ (s.definition h.spot.region).writer = h.port

/-- The law of 03 R48: a record never has more than one GATHERING buffer; and no held write waits for a record that has one (R58). -/
structure State.OneUpdatePerRecord (s : State) : Prop where
  unique : ∀ b c, b ≠ c → (s.buffer b).state = .gathering → (s.buffer c).state = .gathering →
    ¬((s.buffer b).region = (s.buffer c).region ∧ (s.buffer b).record = (s.buffer c).record)
  held : ∀ h ∈ s.pool.holds, s.gatheringOf h.spot.region h.spot.record = none

end Sys2Proof.Machine
end

