-- ==== Sys2Proof/Certificates/Slice0/Obligations.lean ====
section
/-! DEFINITION. The statements for the provers, from the manual's numbered rules. Each docstring names the rules; a clause that
is the model's own choice says so with its log entry. -/

open Sys2Proof Sys2Proof.Machine

/-! ### The step -/

/-- A step runs the command at the front of the queue on the state with the queue's rest; on an empty queue the part idles (the
model's choice, log 3); and no step faults or is refused (log 6). -/
def Obligations.StepRunsTheFrontCommand : Prop :=
  (∀ (c : Instr) (rest : List Instr) (s : State), s.pending = c :: rest →
    step s = exec c { s with pending := rest }) ∧
  (∀ s : State, s.pending = [] → step s = .next s) ∧
  (∀ s : State, ∃ t, step s = .next t)

/-- What only one kind of command changes, over all commands. The queue of waiting commands: none (the step takes its front). The timebase: a
period of the reference, by one, and hard reset, to 0 (07 R121). The tag counter and the record of what was issued: a grant with the port
IDLE, and neither a step nor a reset takes back what was issued (06 R111, R112, R120). -/
def Obligations.OnlyItsOwnCommandMovesEachCounter : Prop :=
  ∀ (c : Instr) (s t : State), exec c s = .next t →
    t.pending = s.pending ∧
    (t.timebase ≠ s.timebase → (c = .hardReset ∧ t.timebase = 0) ∨
      ((c = .timebaseTick ∨ c = .activateComplete .tick ∨ c = .drainComplete .tick ∨ c = .flushPortComplete .tick ∨
        c = .restartComplete .tick) ∧ s.hardResetLine = false ∧ t.timebase = s.timebase + 1)) ∧
    ((t.mem.issued = s.mem.issued ∧ t.mem.tagCounter = s.mem.tagCounter) ∨
      (c = .memoryGrant ∧ s.mem.outstanding = none ∧ t.mem.tagCounter = s.mem.tagCounter + 1 ∧
        ∃ m, t.mem.issued = s.mem.issued ++ [⟨s.mem.tagCounter, m⟩]))

/-! ### Resets and lines -/

/-- HARD_RESET from any state (01 R15, R22; 02 R42; 03 R67; 04 R84; 05 R108; 06 R120; 07 R137; 08 R154). The model's records of responses and of
issued transactions stand (log 14), and so do the levels of the port-reset lines (log 27). -/
def Obligations.HardResetReturnsThePartToItsInitialState : Prop :=
  ∀ s : State, ∃ t, exec .hardReset s = .next t ∧
    (∀ r, t.region r = .emptyEntry) ∧ (∀ k : Fin 4096, cell t.versions k = ⟨0, .clean⟩) ∧
    (∀ p, (t.port p).queue = [] ∧ (t.port p).service = .fresh ∧ (t.port p).responses = (s.port p).responses ∧
      (t.port p).resetLine = (s.port p).resetLine) ∧
    (∀ b, (t.buffer b).state = .free ∧ (t.buffer b).waitCount = 0 ∧ (t.buffer b).preTorn = false ∧
      (∀ k, cell (t.buffer b).mask k = 0)) ∧
    (∀ p, t.pool.gathering.get p = []) ∧ t.pool.closeOrder = [] ∧ t.pool.holds = [] ∧
    t.engine = .idle ∧ (∀ p v, (t.view p v).state = .free) ∧ (∀ p, (t.views.get p).useList = []) ∧ t.captures = [] ∧
    t.mem.ring = .plain .u0 ∧ (∀ q, t.mem.pendingOf q = none) ∧ t.mem.outstanding = none ∧
    t.mem.tagCounter = s.mem.tagCounter ∧ t.mem.issued = s.mem.issued ∧
    t.events.queue = [] ∧ t.events.lost = 0 ∧ t.events.sequence = 0 ∧ t.events.queueMask = 0x7F ∧
    t.events.attentionMask = 0 ∧ t.events.attention = false ∧ (∀ i, cell t.events.watches i = .unusedValues) ∧
    t.link.state = .idle ∧ t.link.lastRefusal = .none ∧ t.timebase = 0 ∧ t.hardResetLine = true

/-- While the hard reset line is asserted (02 R25; 06 R120; 07 R121; 08 R154): no request is taken, nothing is granted, the timebase holds,
and no frame of any opener, nor a command sent as a frame, does more than present 0x00, recorded bit by bit (log 14). HARD_RESET_DEASSERT
(08 R154): the line falls, and a chip-select period open then is no frame to its end (its level is an operand, log 19); nothing else
changes. In that period (08 R154) no opener is taken: whatever bytes and bits are clocked present 0x00, the rise of chip select ends it, and
nothing else changes, whatever row carries them (an opener or a command sent in it is so many more of its bytes, log 11). A line that is not
asserted cannot fall: nothing changes (log 6). -/
def Obligations.HardResetHoldsThePartUntilDeassertion : Prop :=
  (∀ s : State, s.hardResetLine = true →
    (∀ p r, exec (.requestTaken p r) s = .next s) ∧ exec .memoryGrant s = .next s ∧ exec .timebaseTick s = .next s ∧
    (∀ c : Command, exec (rowOf c) s =
      .next (s.setLink { s.link with presented := zeros (8 * frameLength c) })) ∧
    (∀ (f : FramePart) (i : Instr), (i = .commandFrame f ∨ i = .resultFrame f ∨ i = .statusFrame f ∨ i = .abandonFrame f ∨
        ∃ o, i = .badOpener o f) →
      exec i s = .next (s.setLink { s.link with
        presented := (if f.opens = .goesOn then s.link.presented else []) ++
          zeros ((if f.opens = .opener then 8 else 0) + 8 * f.bytes.length + (if f.ends then f.cut.val else 0)) }))) ∧
  (∀ (low : Bool) (s : State),
    (s.hardResetLine = true →
      exec (.hardResetDeassert low) s = .next ((s.setHardResetLine false).setLink
        { s.link with frame := if low then some .noFrame else none })) ∧
    (s.hardResetLine = false → exec (.hardResetDeassert low) s = .next s)) ∧
  (∀ s : State, s.hardResetLine = false → s.link.frame = some .noFrame →
    (∀ (f : FramePart) (i : Instr), (i = .commandFrame f ∨ i = .resultFrame f ∨ i = .statusFrame f ∨ i = .abandonFrame f ∨
        ∃ o, i = .badOpener o f) →
      (f.opens ≠ .shortOpener → exec i s = .next (s.setLink { s.link with
        frame := if f.ends then none else some .noFrame
        presented := s.link.presented ++
          zeros ((if f.opens = .opener then 8 else 0) + 8 * f.bytes.length + (if f.ends then f.cut.val else 0)) })) ∧
      (f.opens = .shortOpener → exec i s = .next (s.setLink { s.link with
        frame := none, presented := s.link.presented ++ zeros f.cut.val }))) ∧
    (∀ c : Command, exec (rowOf c) s = .next (s.setLink { s.link with
      frame := none, presented := s.link.presented ++ zeros (8 * frameLength c) })))

/-- PORT_RESET (02 R38, R39; 03 R63; 05 R104; 06 R118): what the assertion does to Un, and what it leaves alone. Where no other port has a held
write to open, each of Un's GATHERING buffers goes to FREE and the step's events are one UPDATE_ABANDONED with detail PORT_RESET for each,
in the order of Un's gathering list; none is posted for Un's held write. Stated for states that keep the pool's laws. PORT_RESET_DEASSERT
(02 R38): the line's level is all that changes. -/
def Obligations.PortResetDropsThePortsWork : Prop :=
  (∀ (p : Port) (s : State), s.PoolLawful → ∃ t, exec (.portReset p) s = .next t ∧
    (t.port p).queue = [] ∧ (t.port p).service = .fresh ∧ (t.port p).resetLine = true ∧
    (t.port p).responses = (s.port p).responses ∧
    t.pool.gathering.get p = [] ∧ (∀ h ∈ t.pool.holds, h.port ≠ p) ∧
    (∀ v, (t.view p v).state = .free) ∧ t.mem.pendingOf (.plain p) = none ∧
    t.mem.outstanding = s.mem.outstanding.map
      (fun x => if x.requester = .plain p then { x with discard := true } else x) ∧
    (∀ b, (s.buffer b).state = .closed ∨ (s.buffer b).state = .committing →
      (t.buffer b).state = (s.buffer b).state ∧ (t.buffer b).region = (s.buffer b).region ∧
      (t.buffer b).record = (s.buffer b).record ∧ (t.buffer b).writer = (s.buffer b).writer ∧
      (t.buffer b).image = (s.buffer b).image ∧ (t.buffer b).mask = (s.buffer b).mask) ∧
    (∀ q, q ≠ p → (s.port q).responses <+: (t.port q).responses) ∧
    t.engine = s.engine ∧ t.timebase = s.timebase ∧ t.events.watches = s.events.watches ∧
    t.events.queueMask = s.events.queueMask ∧ t.events.attentionMask = s.events.attentionMask ∧
    t.mem.ring = s.mem.ring ∧ t.mem.tagCounter = s.mem.tagCounter ∧
    (s.AtRest → (∀ h ∈ s.pool.holds, h.port = p) →
      (∀ b, (s.buffer b).state = .gathering → (s.buffer b).writer = p → (t.buffer b).state = .free) ∧
      t.events = s.abandonEvents .portReset (s.pool.gathering.get p)) ∧
    (∀ k : Fin 4096, (cell t.versions k).version = (cell s.versions k).version)) ∧
  (∀ (p : Port) (s : State), ∃ t, exec (.portResetDeassert p) s = .next t ∧
    t = s.setPort p { s.port p with resetLine := false } ∧
    (s.hardResetLine = false → (s.port p).queue.length < 8 → t.canTake p = true))

/-! ### Timebase and timers -/

/-- TIMEBASE_TICK (07 R121, R122; 01 R8). The timebase advances by one modulo 2^32. With no timer due in the microsecond that ends, an ACTIVATE
in execution fills the next entry of its range with version 0 and CLEAN, and with the last the region goes to ACTIVE and the result is DONE
with no data; nothing else changes. With one timer due, the tick is that timer's expiry, as its own row, and then the tick (the model's
reading of R122, log 7). ACTIVATE_COMPLETE (01 R8): in the tick that fills the last entry of the range, the tick's own step (log 5), and in no
other tick, in which the row changes nothing (log 6). -/
def Obligations.TheReferenceTicksAndFills : Prop :=
  (∀ s : State, s.hardResetLine = false → (∀ x, ¬ s.Due x) →
    ((∀ r n, s.link.state ≠ .executing (.activate r n)) →
      exec .timebaseTick s = .next (s.setTimebase (s.timebase + 1))) ∧
    (∀ r n, s.link.state = .executing (.activate r n) →
      (n + 1 < (s.definition r).recordCount →
        exec .timebaseTick s = .next (((s.setTimebase (s.timebase + 1)).setEntry r n ⟨0, .clean⟩).setLink
          { s.link with state := .executing (.activate r (n + 1)) })) ∧
      (n + 1 = (s.definition r).recordCount →
        exec .timebaseTick s = .next ((((s.setTimebase (s.timebase + 1)).setEntry r n ⟨0, .clean⟩).setRegion r
          ⟨.active, s.definition r⟩).setLink { s.link with state := .result (resultBytes .done []) 0 })))) ∧
  (∀ (s u : State) (x : Timer), s.hardResetLine = false → s.PortsLawful → s.Due x → (∀ y, s.Due y → y = x) →
    exec (rowOfTimer x) s = .next u → (∀ y, ¬ u.Due y) → exec .timebaseTick s = exec .timebaseTick u) ∧
  (∀ s : State, s.hardResetLine = false → ∃ t, exec .timebaseTick s = .next t ∧ t.timebase = s.timebase + 1) ∧
  (∀ (s : State) (r : RegionId) (n : Nat), s.hardResetLine = false → s.link.state = .executing (.activate r n) →
    (n + 1 = (s.definition r).recordCount →
      exec (.activateComplete .tick) s = exec .timebaseTick s ∧
      ∃ t, exec (.activateComplete .tick) s = .next t ∧ (t.region r) = ⟨.active, s.definition r⟩ ∧
        t.link.state = .result (resultBytes .done []) 0 ∧ t.timebase = s.timebase + 1) ∧
    (n + 1 < (s.definition r).recordCount → exec (.activateComplete .tick) s = .next s))

/-- HOLD_LIMIT (03 R57): in the microsecond 500 µs after its hold time a held write leaves the hold list and ends REFUSED, and WRITE_REFUSED with
detail HOLD_LIMIT is posted; the piece stages nothing. The router carries on: when the piece is the last of the port's one request, the port
returns the response, REFUSED unless an earlier piece gave FAULT, and nothing else changes; else the request goes on with REFUSED among its
outcomes, or has its response, REFUSED or FAULT (02 R37). In any other microsecond, and with no held write, nothing changes (log 6, log 7). -/
def Obligations.HoldLimitRefusesTheHeldWrite : Prop :=
  ∀ (p : Port) (s : State), s.AtRest → s.PortsLawful →
    ((∀ h ∈ s.pool.holds, h.port ≠ p) → exec (.holdLimit p) s = .next s) ∧
    (∀ h ∈ s.pool.holds, h.port = p →
      ((s.timebase - h.holdTime).toNat ≠ 500 → exec (.holdLimit p) s = .next s) ∧
      ((s.timebase - h.holdTime).toNat = 500 → ∃ t, exec (.holdLimit p) s = .next t ∧ h ∉ t.pool.holds ∧
        (s.events.queueMask.getLsbD 4 = true → s.events.queue.length < 32 →
          s.events.queue ++ [⟨s.events.sequence, .writeRefused .holdLimit, h.spot.region, p, h.spot.record,
            s.version h.spot.region h.spot.record, s.timebase⟩] <+: t.events.queue) ∧
        (∀ r, (s.port p).queue = [r] → (s.port p).service.next + h.words.length = r.beats →
          t = ((s.setPool { s.pool with holds := s.pool.holds.erase h }).setEvents
              (s.events.post s.timebase (.writeRefused .holdLimit) h.spot.region p h.spot.record
                (s.version h.spot.region h.spot.record))).setPort p
            { s.port p with
              queue := []
              service := .fresh
              responses := (s.port p).responses ++ [⟨worst ((s.port p).service.outcomes ++ [.refused]),
                if isRead r then (s.port p).service.words else []⟩] }) ∧
        (((t.port p).queue = (s.port p).queue ∧ (t.port p).responses = (s.port p).responses ∧
            (s.port p).service.outcomes ++ [.refused] <+: (t.port p).service.outcomes) ∨
          ∃ x more, (t.port p).responses = (s.port p).responses ++ x :: more ∧ (x.status = .refused ∨ x.status = .fault)) ∧
        t.regions = s.regions ∧ t.link = s.link ∧ t.timebase = s.timebase ∧ t.engine = s.engine))

/-- UPDATE_EXPIRY (03 R59, R60), with no held write to examine, in the microsecond in which the timebase less the opening time equals the update
limit: under DISCARD the buffer goes to FREE, under CLOSE it closes as a partial update, with as wait count the in-flight captures of its
record, each of which takes it into its hold set, and its place at the tail of the close order (R49, R50, R51); either way it leaves the
gathering list, and UPDATE_EXPIRED is posted; nothing else changes. A buffer that is not GATHERING, or whose limit is 0, or in any other
microsecond, is left alone (log 6, log 7). VIEW_EXPIRED (05 R100), with no piece of the port awaiting a view: a HELD view in the microsecond
its lifetime is reached goes to FREE and leaves the use list, and VIEW_EXPIRED is posted with the view's version; nothing else changes. Any
other view is left alone. -/
def Obligations.ExpiryEndsTheUpdateOrTheView : Prop :=
  (∀ (b : BufId) (s : State), s.AtRest → s.RegionsLawful → s.UpdatesOwned → s.pool.holds = [] →
    let x := s.buffer b
    let d := s.definition x.region
    let gathering := s.pool.gathering.set x.writer ((s.pool.gathering.get x.writer).erase b)
    let posted := s.events.post s.timebase (.updateExpired d.action) x.region x.writer x.record (s.version x.region x.record)
    (¬(x.state = .gathering ∧ d.updateLimit ≠ 0 ∧ (s.timebase - x.openingTime).toNat = d.updateLimit) →
      exec (.updateExpiry b) s = .next s) ∧
    (x.state = .gathering → d.updateLimit ≠ 0 → (s.timebase - x.openingTime).toNat = d.updateLimit →
      (d.action = .discard → exec (.updateExpiry b) s = .next
        ((s.setPool { s.pool with buffers := put s.pool.buffers b { x with state := .free }, gathering := gathering }).setEvents
          posted)) ∧
      (d.action = .close → exec (.updateExpiry b) s = .next
        (((s.setPool { s.pool with
              buffers := put s.pool.buffers b { x with state := .closed, waitCount := s.inFlight x.region x.record }
              gathering := gathering
              closeOrder := s.pool.closeOrder ++ [b] }).setCaptures (s.capturesHolding x.region x.record b)).setEvents posted)))) ∧
  (∀ (p : Port) (v : ViewIx) (s : State), s.AtRest → s.ViewsLawful →
    (∀ x, (s.port p).service.piece = some x → x.wait ≠ .forView) →
    let x := s.view p v
    let d := s.definition x.region
    (¬(x.state = .held ∧ d.viewLifetime ≠ 0 ∧ (s.timebase - x.completeTime).toNat = d.viewLifetime) →
      exec (.viewExpired p v) s = .next s) ∧
    (x.state = .held → d.viewLifetime ≠ 0 → (s.timebase - x.completeTime).toNat = d.viewLifetime →
      exec (.viewExpired p v) s = .next
        ((s.setViews p { views := put (s.views.get p).views v { x with state := .free }
                         useList := (s.views.get p).useList.erase v }).post .viewExpired x.region p x.record x.version)))

/-! ### Requests (02) -/

/-- REQUEST_TAKEN (02 R25): a port whose queue holds 8 requests, or one of whose reset lines is asserted, takes nothing; a request taken
behind others joins the tail and waits, and nothing else changes. A request past the top of the address space (02 R23) is answered FAULT
at once, a READ with zero words; nothing else changes. -/
def Obligations.RequestsQueueInOrder : Prop :=
  (∀ (p : Port) (r : Request) (s : State), s.AtRest →
    ((s.port p).queue.length ≥ 8 ∨ (s.port p).resetLine = true ∨ s.hardResetLine = true →
      exec (.requestTaken p r) s = .next s) ∧
    (∀ h rest, s.hardResetLine = false → (s.port p).resetLine = false → (s.port p).queue = h :: rest →
      (s.port p).queue.length < 8 → r.wellFormed = true →
      exec (.requestTaken p r) s = .next (s.setPort p { s.port p with queue := h :: rest ++ [r] }))) ∧
  (∀ (p : Port) (r : Request) (s : State), s.AtRest → s.canTake p = true → (s.port p).queue = [] →
    (s.port p).service = .fresh → r.wellFormed = true → 0xFFFFFFFC < r.address.toNat + 4 * (r.beats - 1) →
    exec (.requestTaken p r) s = .next (s.answered p
      ⟨.fault, match r with | .read _ n => List.replicate n 0 | .write _ _ => []⟩))

/-- A plain request (02 R27, R28, R29), and a read by an other port (R30), becomes one memory transaction of the same words through the
port's plain requester, a WRITE with its data and enables unchanged; nothing else changes. A request that leaves plain space, or the record
the other port reads, is cut there (R27): the first piece holds the words up to that beat, and they alone become the transaction. -/
def Obligations.PlainPiecesBecomeOneTransaction : Prop :=
  ∀ (p : Port) (r : Request) (s : State), s.AtRest → s.ServesAtOnce p r →
    (s.PlainAll r →
      exec (.requestTaken p r) s = .next ((s.serving p r none .memory).setPlainRequest p
        (some (match r with | .read a n => .read a n | .write a ws => .write a ws)))) ∧
    (∀ x : Spot, ∀ a n, r = .read a n → s.Within r x → (s.definition x.region).writer ≠ p →
      (s.definition x.region).readers.get p = false →
      exec (.requestTaken p r) s = .next ((s.serving p r (some x) .memory).setPlainRequest p (some (.read a n)))) ∧
    (∀ n, 0 < n → n < r.beats → (∀ k, k < n → s.spotOf (beatAddress r k) = none) → s.spotOf (beatAddress r n) ≠ none →
      exec (.requestTaken p r) s = .next ((s.setPort p { s.port p with
          queue := [r], service := { Service.fresh with piece := some ⟨n, none, .memory⟩ } }).setPlainRequest p
        (some (match r with | .read a _ => .read a n | .write a ws => .write a (ws.take n))))) ∧
    (∀ (x : Spot) (a : Word) (m n : Nat), r = .read a m → 0 < n → n < m →
      (∀ k, k < n → s.spotOf (beatAddress r k) = some { x with offset := x.offset + k }) →
      (∀ y, s.spotOf (beatAddress r n) = some y → ¬ sameRecord x y) → (s.definition x.region).writer ≠ p →
      (s.definition x.region).readers.get p = false →
      exec (.requestTaken p r) s = .next ((s.setPort p { s.port p with
          queue := [r], service := { Service.fresh with piece := some ⟨n, some x, .memory⟩ } }).setPlainRequest p
        (some (.read a n))))

/-- A foreign write (02 R31) is answered REFUSED at once, and one WRITE_REFUSED event with detail FOREIGN is posted; nothing else
changes, whatever its data and enables. A foreign write over two records is two pieces (R27): one event for each, in address order, and
one response, REFUSED (R37). -/
def Obligations.ForeignWritesAreRefused : Prop :=
  (∀ (p : Port) (a : Word) (ws : List WriteWord) (x : Spot) (s : State), s.AtRest →
    s.ServesAtOnce p (.write a ws) → s.Within (.write a ws) x → (s.definition x.region).writer ≠ p →
    exec (.requestTaken p (.write a ws)) s = .next ((s.post (.writeRefused .foreign) x.region p x.record
      (s.version x.region x.record)).answered p ⟨.refused, []⟩)) ∧
  (∀ (p : Port) (a : Word) (ws : List WriteWord) (x y : Spot) (n : Nat) (s : State), s.AtRest →
    s.ServesAtOnce p (.write a ws) → 0 < n → n < ws.length →
    (∀ k, k < n → s.spotOf (beatAddress (.write a ws) k) = some { x with offset := x.offset + k }) →
    s.RestWithin (.write a ws) n y → ¬ sameRecord x y → (s.definition x.region).writer ≠ p → (s.definition y.region).writer ≠ p →
    exec (.requestTaken p (.write a ws)) s = .next (((s.post (.writeRefused .foreign) x.region p x.record
      (s.version x.region x.record)).post (.writeRefused .foreign) y.region p y.record
      (s.version y.region y.record)).answered p ⟨.refused, []⟩))

/-! ### The update controller (03) -/

/-- Staging a byte (03 R47): after a piece's words are staged from an offset on, a byte is marked if it was or if the piece enables it, and
holds the piece's byte if the piece enables it, else what it held. Bytes from a list of buffers (02 R33, 05 R89): a byte is supplied if
some buffer's mask holds it, and its value is that of the last buffer of the list that holds it. -/
def Obligations.StagedBytesOverlayTheOlderOnes : Prop :=
  (∀ (x : Buffer) (off : Nat) (ws : List WriteWord) (k : Fin 16) (i : Fin 4),
    let w : WriteWord := if off ≤ k.val then ws.getD (k.val - off) ⟨0, 0⟩ else ⟨0, 0⟩
    (cell (stageWords x off ws).mask k).getLsbD i.val = ((cell x.mask k).getLsbD i.val || w.enables.getLsbD i.val) ∧
    (cell (stageWords x off ws).image k).extractLsb' (8 * i.val) 8 =
      (if w.enables.getLsbD i.val then w.data else cell x.image k).extractLsb' (8 * i.val) 8) ∧
  (∀ (older newer : List Buffer) (b : Buffer) (k : Fin 16) (i : Fin 4),
    (cell b.mask k).getLsbD i.val = true → (∀ c ∈ newer, (cell c.mask k).getLsbD i.val = false) →
    (overlay (older ++ b :: newer) k.val).enables.getLsbD i.val = true ∧
    (overlay (older ++ b :: newer) k.val).data.extractLsb' (8 * i.val) 8 = (cell b.image k).extractLsb' (8 * i.val) 8 ∧
    (∀ l : List Buffer, (∀ c ∈ l, (cell c.mask k).getLsbD i.val = false) →
      (overlay l k.val).enables.getLsbD i.val = false))

/-- A writer's piece that does not reach the close word (03 R43, R46, R47, R48): it joins the record's GATHERING buffer, or, with none and
both limits permitting, opens the FREE buffer of lowest number for it, and is answered OKAY; nothing else changes. The version word is
never staged (03 R46): a writer's write of the version word alone, or with every other byte disabled, is answered OKAY at once and nothing
else changes. -/
def Obligations.WriterPiecesJoinOrOpenAnUpdate : Prop :=
  (∀ (p : Port) (a : Word) (ws : List WriteWord) (x : Spot) (s : State), s.AtRest →
    s.ServesAtOnce p (.write a ws) → s.Within (.write a ws) x → (s.definition x.region).writer = p →
    (∃ k, ∃ h : k < ws.length, (s.definition x.region).versionWord ≠ some (x.offset + k) ∧ (ws[k]).enables ≠ 0) →
    (∀ k, (h : k < ws.length) → (s.definition x.region).closeOffset = x.offset + k →
      (s.definition x.region).versionWord = some (x.offset + k) ∨ (ws[k]).enables = 0) →
    let staged := setAside (s.definition x.region).versionWord x.offset ws
    (∀ b, s.gatheringOf x.region x.record = some b →
      exec (.requestTaken p (.write a ws)) s = .next
        ((s.setBuffer b (stageWords (s.buffer b) x.offset staged)).answered p ⟨.okay, []⟩)) ∧
    (∀ b, s.gatheringOf x.region x.record = none → s.freeBuffer = some b → (s.pool.gathering.get p).length < 4 →
      ∃ t, exec (.requestTaken p (.write a ws)) s = .next t ∧
        t = (s.setPool t.pool).answered p ⟨.okay, []⟩ ∧
        t.buffer b = stageWords { state := .gathering, region := x.region, record := x.record, writer := p,
                                  image := Vector.replicate 16 0, mask := Vector.replicate 16 0,
                                  openingTime := s.timebase, waitCount := 0, preTorn := false } x.offset staged ∧
        (∀ c, c ≠ b → t.buffer c = s.buffer c) ∧ (∀ c, c < b → (s.buffer c).state ≠ .free) ∧
        t.pool.gathering = s.pool.gathering.set p (s.pool.gathering.get p ++ [b]) ∧
        t.pool.closeOrder = s.pool.closeOrder ∧ t.pool.holds = s.pool.holds)) ∧
  (∀ (p : Port) (a : Word) (ws : List WriteWord) (x : Spot) (s : State), s.AtRest →
    s.ServesAtOnce p (.write a ws) → s.Within (.write a ws) x → (s.definition x.region).writer = p →
    (∀ k, (h : k < ws.length) → (s.definition x.region).versionWord = some (x.offset + k) ∨ (ws[k]).enables = 0) →
    exec (.requestTaken p (.write a ws)) s = .next (s.answered p ⟨.okay, []⟩))

/-- A writer's piece that includes an enabled byte of the close word closes its update (03 R49, R50), with no held write to examine: the words are
staged first; the buffer goes to CLOSED, leaves the gathering list, takes as wait count the in-flight captures of its record, each of
which takes it into its hold set, and joins the tail of the close order; the piece is answered OKAY. With no GATHERING buffer of the record
and both limits permitting (R48), the piece opens and closes its update in the one step, in the FREE buffer of lowest number, and the
gathering lists end as they stood. -/
def Obligations.TheCloseWordClosesTheUpdate : Prop :=
  (∀ (p : Port) (a : Word) (ws : List WriteWord) (x : Spot) (b : BufId) (s : State), s.AtRest → s.PoolLawful →
    s.pool.holds = [] → s.ServesAtOnce p (.write a ws) → s.Within (.write a ws) x →
    (s.definition x.region).writer = p → s.gatheringOf x.region x.record = some b → (s.buffer b).writer = p →
    (∃ k, ∃ h : k < ws.length, (s.definition x.region).closeOffset = x.offset + k ∧
      (s.definition x.region).versionWord ≠ some (x.offset + k) ∧ (ws[k]).enables ≠ 0) →
    ∃ t, exec (.requestTaken p (.write a ws)) s = .next t ∧
      t = ((s.setPool t.pool).setCaptures t.captures).answered p ⟨.okay, []⟩ ∧
      t.buffer b = { stageWords (s.buffer b) x.offset (setAside (s.definition x.region).versionWord x.offset ws) with
        state := .closed
        waitCount := (s.captures.filter fun c => c.ofRecord x.region x.record).length } ∧
      (∀ c, c ≠ b → t.buffer c = s.buffer c) ∧
      t.pool.gathering = s.pool.gathering.set p ((s.pool.gathering.get p).erase b) ∧
      t.pool.closeOrder = s.pool.closeOrder ++ [b] ∧ t.pool.holds = [] ∧
      t.captures = s.captures.map
        (fun c => if c.ofRecord x.region x.record then { c with holdSet := c.holdSet ++ [b] } else c)) ∧
  (∀ (p : Port) (a : Word) (ws : List WriteWord) (x : Spot) (b : BufId) (s : State), s.AtRest → s.PoolLawful →
    s.pool.holds = [] → s.ServesAtOnce p (.write a ws) → s.Within (.write a ws) x →
    (s.definition x.region).writer = p → s.gatheringOf x.region x.record = none → (s.buffer b).state = .free →
    (∀ c, c < b → (s.buffer c).state ≠ .free) → (s.pool.gathering.get p).length < 4 →
    (∃ k, ∃ h : k < ws.length, (s.definition x.region).closeOffset = x.offset + k ∧
      (s.definition x.region).versionWord ≠ some (x.offset + k) ∧ (ws[k]).enables ≠ 0) →
    exec (.requestTaken p (.write a ws)) s = .next
      (((s.setPool { s.pool with
          buffers := put s.pool.buffers b
            { stageWords (s.opened p x) x.offset (setAside (s.definition x.region).versionWord x.offset ws) with
              state := .closed
              waitCount := s.inFlight x.region x.record }
          closeOrder := s.pool.closeOrder ++ [b] }).setCaptures (s.capturesHolding x.region x.record b)).answered p ⟨.okay, []⟩))

/-- A piece that may not open (03 R52, R53, R54): STAGING_EXHAUSTED is posted, naming POOL when no buffer is FREE and PORT otherwise, with the
region's policy. Under REFUSE the piece is answered REFUSED and nothing else changes. Under THROUGH the record goes TORN with its version as it
stands, every non-FREE buffer of the record goes pre-torn, RECORD_TORN with detail WRITE_THROUGH follows, and the piece becomes one write of
its words with the version word's enables off. -/
def Obligations.ExhaustionRefusesOrWritesThrough : Prop :=
  ∀ (p : Port) (a : Word) (ws : List WriteWord) (x : Spot) (s : State), s.AtRest →
    s.ServesAtOnce p (.write a ws) → s.Within (.write a ws) x → (s.definition x.region).writer = p →
    (∃ k, ∃ h : k < ws.length, (s.definition x.region).versionWord ≠ some (x.offset + k) ∧ (ws[k]).enables ≠ 0) →
    s.gatheringOf x.region x.record = none →
    ((∀ b, (s.buffer b).state ≠ .free) ∨ 4 ≤ (s.pool.gathering.get p).length) →
    let policy := (s.definition x.region).policy
    let limit : Limit := if ∀ b, (s.buffer b).state ≠ .free then .pool else .port
    let u := s.post (.stagingExhausted limit policy) x.region p x.record (s.version x.region x.record)
    (policy = .refuse → exec (.requestTaken p (.write a ws)) s = .next (u.answered p ⟨.refused, []⟩)) ∧
    (policy = .through → ∃ t, exec (.requestTaken p (.write a ws)) s = .next t ∧
      t.versions = putD s.versions ((s.definition x.region).versionBase + x.record)
        { s.entry x.region x.record with torn := .torn } ∧
      (∀ b, t.buffer b = if (s.buffer b).ofRecord x.region x.record then { s.buffer b with preTorn := true } else s.buffer b) ∧
      t.events = u.events.post s.timebase (.recordTorn .writeThrough) x.region p x.record (s.version x.region x.record) ∧
      t.mem.pendingOf (.plain p) =
        some (.write a (setAside (s.definition x.region).versionWord x.offset ws)) ∧
      (t.port p).responses = (s.port p).responses ∧ t.views = s.views ∧ t.captures = s.captures ∧
      t.pool.gathering = s.pool.gathering ∧ t.pool.closeOrder = s.pool.closeOrder ∧ t.regions = s.regions)

/-- CLOSE_OLDEST (03 R52, R55, R56): STAGING_EXHAUSTED is posted once, naming the limit and CLOSE_OLDEST, and the port's oldest GATHERING buffer,
of whichever region, closes as a partial update. With the pool full the piece becomes the port's held write, last in the hold list, with the
timebase as its hold time, and waits. With a buffer FREE, so that only the port's four stood in the way, it opens the FREE buffer of lowest
number in the same step with its words staged, closing it if it includes the close word, and is answered OKAY. A held write opens when a commit
frees a buffer of a full pool (R56; 04 R79): of the hold list, earliest held first, the first whose port holds fewer than four GATHERING
buffers takes the freed buffer and leaves the list, and the others stay; when its piece is the last of its port's one request, the port
answers. -/
def Obligations.CloseOldestClosesEarlyAndHolds : Prop :=
  (∀ (p : Port) (a : Word) (ws : List WriteWord) (x : Spot) (s : State), s.AtRest → s.PoolLawful →
    s.ServesAtOnce p (.write a ws) → s.Within (.write a ws) x → (s.definition x.region).writer = p →
    (∃ k, ∃ h : k < ws.length, (s.definition x.region).versionWord ≠ some (x.offset + k) ∧ (ws[k]).enables ≠ 0) →
    s.gatheringOf x.region x.record = none → (s.definition x.region).policy = .closeOldest →
    let staged := setAside (s.definition x.region).versionWord x.offset ws
    let closesEarly : BufId → State → Prop := fun b t =>
      t.buffer b = { s.buffer b with state := .closed, waitCount := s.inFlight (s.buffer b).region (s.buffer b).record }
    let exhausted : Limit → EventUnit := fun l => s.events.post s.timebase (.stagingExhausted l .closeOldest) x.region p x.record
      (s.version x.region x.record)
    ((∀ b, (s.buffer b).state ≠ .free) →
      ∃ t, exec (.requestTaken p (.write a ws)) s = .next t ∧ t.events = exhausted .pool ∧
        t.pool.holds = s.pool.holds ++ [⟨p, x, staged, s.timebase⟩] ∧
        t.port p = { s.port p with
          queue := [.write a ws], service := { Service.fresh with piece := some ⟨ws.length, some x, .held⟩ } } ∧
        (∀ b more, s.pool.gathering.get p = b :: more → closesEarly b t ∧ (∀ c, c ≠ b → t.buffer c = s.buffer c) ∧
          t.pool.gathering = s.pool.gathering.set p more ∧ t.pool.closeOrder = s.pool.closeOrder ++ [b]) ∧
        (s.pool.gathering.get p = [] → t.pool.buffers = s.pool.buffers ∧ t.pool.closeOrder = s.pool.closeOrder)) ∧
    (∀ b more n, s.pool.gathering.get p = b :: more → (s.pool.gathering.get p).length = 4 → s.freeBuffer = some n →
      s.pool.holds = [] →
      let closes : Prop := ∃ k, ∃ h : k < ws.length, (s.definition x.region).closeOffset = x.offset + k ∧
        (s.definition x.region).versionWord ≠ some (x.offset + k) ∧ (ws[k]).enables ≠ 0
      ∃ t, exec (.requestTaken p (.write a ws)) s = .next t ∧ t.events = exhausted .port ∧ t.pool.holds = [] ∧
        (t.port p).responses = (s.port p).responses ++ [⟨.okay, []⟩] ∧ (t.port p).queue = [] ∧
        closesEarly b t ∧ (∀ c, c ≠ b → c ≠ n → t.buffer c = s.buffer c) ∧
        (¬ closes → t.buffer n = stageWords (s.opened p x) x.offset staged ∧
          t.pool.gathering = s.pool.gathering.set p (more ++ [n]) ∧ t.pool.closeOrder = s.pool.closeOrder ++ [b]) ∧
        (closes → t.buffer n = { stageWords (s.opened p x) x.offset staged with
            state := .closed, waitCount := s.inFlight x.region x.record } ∧
          t.pool.gathering = s.pool.gathering.set p more ∧ t.pool.closeOrder = s.pool.closeOrder ++ [b, n]))) ∧
  (∀ (s : State) (tr : Transaction) (job : CommitJob) (f : List Answer → List Answer) (i : Instr) (k : Cause) (h : HeldWrite)
    (before after : List HeldWrite) (r : Request), s.AtRest → s.PoolLawful → s.PortsLawful → s.EndsBy tr i k f →
    s.Ends .commit tr (f tr.answers) → s.engine = .writing job → (∀ b, (s.buffer b).state ≠ .free) →
    s.pool.holds = before ++ h :: after → (∀ g ∈ before, 4 ≤ (s.pool.gathering.get g.port).length) →
    (s.pool.gathering.get h.port).length < 4 → (s.port h.port).queue = [r] →
    (s.port h.port).service.next + h.words.length = r.beats →
    let staged := stageWords (s.opened h.port h.spot) h.spot.offset h.words
    ∃ t, exec i s = .next t ∧ t.pool.holds = before ++ after ∧
      (t.buffer job.buffer).region = h.spot.region ∧ (t.buffer job.buffer).record = h.spot.record ∧
      (t.buffer job.buffer).writer = h.port ∧ (t.buffer job.buffer).openingTime = s.timebase ∧
      (t.buffer job.buffer).image = staged.image ∧ (t.buffer job.buffer).mask = staged.mask ∧
      (t.buffer job.buffer).preTorn = false ∧
      (s.closes h.spot h.words = false → (t.buffer job.buffer).state = .gathering ∧
        t.pool.gathering = s.pool.gathering.set h.port (s.pool.gathering.get h.port ++ [job.buffer])) ∧
      (s.closes h.spot h.words = true → ((t.buffer job.buffer).state = .closed ∨ (t.buffer job.buffer).state = .committing) ∧
        t.pool.gathering = s.pool.gathering ∧ t.pool.closeOrder = s.pool.closeOrder.erase job.buffer ++ [job.buffer]) ∧
      t.port h.port = { s.port h.port with
        queue := []
        service := .fresh
        responses := (s.port h.port).responses ++ [⟨worst ((s.port h.port).service.outcomes ++ [.okay]),
          if isRead r then (s.port h.port).service.words else []⟩] })

/-! ### Read-own and views (02, 2.7; 05) -/

/-- Read-own (02 R33, R34): a read by the writer port takes its snapshot of the record's buffers, the GATHERING one last, and of its entry. When some
byte of a word other than the version word is not supplied it requests one read of the run from the lowest such word to the highest; else it
is answered at once from the snapshot, TORN if the mark was TORN. Nothing else changes. -/
def Obligations.ReadOwnReadsWhatTheBuffersDoNotSupply : Prop :=
  ∀ (p : Port) (a : Word) (n : Nat) (x : Spot) (s : State), s.AtRest → s.ServesAtOnce p (.read a n) →
    s.Within (.read a n) x → (s.definition x.region).writer = p →
    let d := s.definition x.region
    let bufs := (s.basisOf x.region x.record ++ (s.gatheringOf x.region x.record).toList).map s.buffer
    let e := s.entry x.region x.record
    let supplied := (run x.offset n).map (overlay bufs)
    let open' : Nat → Prop := fun k => k < n ∧ d.versionWord ≠ some (x.offset + k) ∧ (overlay bufs (x.offset + k)).enables ≠ 0xF
    (∀ lo hi, open' lo → open' hi → (∀ k, open' k → lo ≤ k ∧ k ≤ hi) →
      exec (.requestTaken p (.read a n)) s = .next
        ((s.serving p (.read a n) (some x) (.readOwn ⟨x.offset, d.versionWord, supplied, e.version, e.torn, lo⟩)).setPlainRequest p
          (some (.read (a + BitVec.ofNat 32 (4 * lo)) (hi + 1 - lo))))) ∧
    ((∀ k, ¬ open' k) →
      exec (.requestTaken p (.read a n)) s = .next (s.answered p
        ⟨if e.torn = .torn then .torn else .okay,
          (run x.offset n).map fun k =>
            if d.versionWord = some k then e.version.setWidth 32 else (overlay bufs k).data⟩))

/-- A reader's first read of a record opens a view (05 R85, R87, R89, R90) in the FREE view of lowest number, or the HELD view nearest the front
of the use list, and joins it to the back of the use list: JustOpened says its basis, version, indicator and bytes. With no word of the record
unfilled it is HELD from this moment; else it is CAPTURING, and one capture joins the tail of the capture queue, QUEUED, for the run from the
lowest unfilled word to the highest (R91), its answers empty until its burst is requested (the model's choice, log 32). A piece
whose words are all filled is answered at once (R98), and with the release word among them the view is FREE again, its capture withdrawn (R99, R103); else the piece waits on the view. With every view of the port CAPTURING the piece
awaits a view (R88). No buffer, entry, event or other view changes. -/
def Obligations.AReadersFirstReadOpensAView : Prop :=
  ∀ (p : Port) (a : Word) (n : Nat) (x : Spot) (s : State), s.AtRest → s.ViewsLawful →
    s.ServesAtOnce p (.read a n) → s.Within (.read a n) x → (s.definition x.region).writer ≠ p →
    (s.definition x.region).readers.get p = true → s.viewOf p x.region x.record = none →
    (∀ v, (((s.view p v).state = .free ∧ ∀ w, w < v → (s.view p w).state ≠ .free) ∨
        ((∀ w, (s.view p w).state ≠ .free) ∧ (s.views.get p).useList.find? (fun w => (s.view p w).state = .held) = some v)) →
      ∃ t, exec (.requestTaken p (.read a n)) s = .next t ∧ s.JustOpened x (t.view p v) ∧
        (let y := t.view p v
         let d := s.definition x.region
         let others := (s.views.get p).useList.erase v
         let unfilled : Nat → Prop := fun k => k < d.recordWords ∧ cellD y.fill k false = false
         (FilledFor y x n → t.port p = (s.answered p (s.viewResponse x n y)).port p) ∧
         (¬ FilledFor y x n → t.port p = (s.serving p (.read a n) (some x) (.onView v)).port p) ∧
         (FilledFor y x n ∧ s.Releases x n →
           y.state = .free ∧ (t.views.get p).useList = others ∧ t.captures = s.captures) ∧
         (¬(FilledFor y x n ∧ s.Releases x n) → (t.views.get p).useList = others ++ [v] ∧
           ((∀ k, ¬ unfilled k) → y.state = .held ∧ y.completeTime = s.timebase ∧ t.captures = s.captures) ∧
           (∀ lo hi, unfilled lo → unfilled hi → (∀ k, unfilled k → lo ≤ k ∧ k ≤ hi) → y.state = .capturing ∧
             t.captures = s.captures ++ [⟨some v, p, x.region, x.record, lo, hi + 1 - lo, [], .queued, []⟩]))) ∧
        (∀ w, w ≠ v → t.view p w = s.view p w) ∧ (∀ q, q ≠ p → t.views.get q = s.views.get q) ∧
        (∀ q, q ≠ p → t.port q = s.port q) ∧
        t.pool = s.pool ∧ t.versions = s.versions ∧ t.events = s.events ∧ t.mem = s.mem ∧ t.engine = s.engine) ∧
    ((∀ v, (s.view p v).state = .capturing) →
      exec (.requestTaken p (.read a n)) s = .next (s.serving p (.read a n) (some x) .forView))

/-- A read served from a HELD view (05 R98, R99): the words are the view's, the version word the view's version; the outcome is TORN if the view's
indicator is. With the release word among its words the view goes to FREE after the answer and leaves the use list; else it moves to the back of
it. No memory, buffer, entry or event is touched. A CAPTURING view serves a read the same way when every word of the piece is filled, and a
release then cancels its capture (R103): no capture fills it any more; when a word is not filled, the piece waits on the view, and nothing else
changes (R98). -/
def Obligations.AHeldViewAnswersItsPortsReads : Prop :=
  (∀ (p : Port) (a : Word) (n : Nat) (x : Spot) (v : ViewIx) (s : State), s.AtRest → s.ViewsLawful →
    s.ServesAtOnce p (.read a n) → s.Within (.read a n) x → (s.definition x.region).writer ≠ p →
    (s.definition x.region).readers.get p = true → s.viewOf p x.region x.record = some v →
    (s.view p v).state = .held → (∀ k, k < n → cellD (s.view p v).fill (x.offset + k) false = true) →
    let d := s.definition x.region
    let releases : Prop := x.offset ≤ d.releaseOffset ∧ d.releaseOffset < x.offset + n
    let u := s.answered p ⟨if (s.view p v).torn = .torn then .torn else .okay,
      (run x.offset n).map fun k =>
        if d.versionWord = some k then (s.view p v).version.setWidth 32 else cellD (s.view p v).image k 0⟩
    (releases → exec (.requestTaken p (.read a n)) s = .next (u.setViews p
      { views := put (s.views.get p).views v { s.view p v with state := .free }
        useList := (s.views.get p).useList.erase v })) ∧
    (¬ releases → exec (.requestTaken p (.read a n)) s = .next (u.setViews p
      { s.views.get p with useList := (s.views.get p).useList.erase v ++ [v] }))) ∧
  (∀ (p : Port) (a : Word) (n : Nat) (x : Spot) (v : ViewIx) (s : State), s.AtRest → s.ViewsLawful →
    s.ServesAtOnce p (.read a n) → s.Within (.read a n) x → (s.definition x.region).writer ≠ p →
    (s.definition x.region).readers.get p = true → s.viewOf p x.region x.record = some v →
    (s.view p v).state = .capturing →
    let u := s.answered p (s.viewResponse x n (s.view p v))
    let others := (s.views.get p).useList.erase v
    (FilledFor (s.view p v) x n → ¬ s.Releases x n → exec (.requestTaken p (.read a n)) s = .next (u.setViews p
      { s.views.get p with useList := others ++ [v] })) ∧
    (FilledFor (s.view p v) x n → s.Releases x n → ∃ t, exec (.requestTaken p (.read a n)) s = .next t ∧
      t.port p = u.port p ∧ t.view p v = { s.view p v with state := .free } ∧ (t.views.get p).useList = others ∧
      (∀ c ∈ t.captures, c.fills p v = false) ∧ t.versions = s.versions ∧ t.events = s.events) ∧
    (¬ FilledFor (s.view p v) x n →
      exec (.requestTaken p (.read a n)) s = .next (s.serving p (.read a n) (some x) (.onView v))))

/-! ### The memory port (06) -/

/-- MEMORY_GRANT (06 R111, R112): with the port IDLE, the first requester in ring order from the pointer that has a request pending gets it
outstanding under the counter's tag, every word UNANSWERED, the discard indicator off and the timebase as grant time; its pending request
becomes none, the counter advances, the pointer moves past it, the transaction is issued, and an engine is told. With the port BUSY, or
nothing pending, nothing changes. The ring's bound (06 R111): a pending request stands at most four places behind the pointer, and every
grant to another requester brings it strictly nearer; so it is granted after at most four other transactions. -/
def Obligations.GrantsFollowTheRing : Prop :=
  (∀ s : State, s.hardResetLine = false →
    (s.mem.outstanding ≠ none ∨ (∀ q, s.mem.pendingOf q = none) → exec .memoryGrant s = .next s) ∧
    (∀ (before after : List Requester) (q : Requester) (m : MemRequest), s.mem.outstanding = none →
      ringFrom s.mem.ring = before ++ q :: after → (∀ x ∈ before, s.mem.pendingOf x = none) → s.mem.pendingOf q = some m →
      ∃ t, exec .memoryGrant s = .next t ∧
        t.mem = { s.mem.clearPending q with
          outstanding := some ⟨q, s.mem.tagCounter, m, s.timebase, List.replicate m.count .unanswered, false⟩
          tagCounter := s.mem.tagCounter + 1, ring := q.next, issued := s.mem.issued ++ [⟨s.mem.tagCounter, m⟩] } ∧
        t = ((s.setMem t.mem).setEngine t.engine).setCaptures t.captures ∧
        (∀ p, q = .plain p → t.engine = s.engine ∧ t.captures = s.captures) ∧
        (q = .commit → t.captures = s.captures ∧ ∀ job, s.engine = .requesting job → t.engine = .writing job) ∧
        (q = .capture → t.engine = s.engine ∧
          ∀ c cs, s.captures = c :: cs → t.captures = { c with state := .reading } :: cs))) ∧
  (∀ (s t : State) (q : Requester) (m : MemRequest), s.mem.pendingOf q = some m → s.hardResetLine = false →
    s.mem.outstanding = none → exec .memoryGrant s = .next t →
    placesBehind s.mem.ring q ≤ 4 ∧
    ((∃ x, t.mem.outstanding = some x ∧ x.requester = q ∧ x.request = m) ∨
      (t.mem.pendingOf q = some m ∧ placesBehind t.mem.ring q < placesBehind s.mem.ring q)))

/-- An answer the memory port does not accept is discarded (06 R113, R115): with the port IDLE, or a tag other than the outstanding
transaction's, nothing changes. An accepted answer that leaves a word UNANSWERED (06 R113) is recorded for the first UNANSWERED word, and
handed to an engine that keeps its own record unless the discard indicator is on; nothing else changes. The last answer is recorded in the
same way, for the one word left. -/
def Obligations.AnswersAreRecordedInOrderOrDiscarded : Prop :=
  (∀ (tag : Byte) (a : MemAnswer) (s : State), s.AtRest →
    (∀ tr, s.mem.outstanding = some tr → tr.tag ≠ tag) → exec (.memoryAnswer tag a) s = .next s) ∧
  (∀ (tag : Byte) (a : MemAnswer) (s : State) (tr : Transaction) (done : List Answer) (rest : List Answer), s.AtRest →
    s.mem.outstanding = some tr → tr.tag = tag → (∀ x ∈ done, x ≠ .unanswered) →
    tr.answers = done ++ .unanswered :: rest → .unanswered ∈ rest →
    let kept : Answer := match a, tr.request with
      | .fault, _ => .fault
      | .okay w, .read _ _ => .okay w
      | .okay _, .write _ _ => .okay 0
    ∃ t, exec (.memoryAnswer tag a) s = .next t ∧
      t.mem = { s.mem with outstanding := some { tr with answers := done ++ kept :: rest } } ∧
      t = ((s.setMem t.mem).setEngine t.engine).setCaptures t.captures ∧
      (tr.discard = true → t.engine = s.engine ∧ t.captures = s.captures) ∧
      (∀ p, tr.requester = .plain p → t.engine = s.engine ∧ t.captures = s.captures) ∧
      (tr.requester = .commit → tr.discard = false → ∀ job, s.engine = .writing job → job.answers = tr.answers →
        t.engine = .writing { job with answers := done ++ kept :: rest }) ∧
      (tr.requester = .capture → tr.discard = false → ∀ c cs, s.captures = c :: cs → c.answers = tr.answers →
        t.captures = { c with answers := done ++ kept :: rest } :: cs)) ∧
  (∀ (m : MemRequest) (a : MemAnswer) (done rest : List Answer), (∀ x ∈ done, x ≠ .unanswered) →
    answerFirst (done ++ .unanswered :: rest) (recorded m a) = done ++ (match a, m with
      | .fault, _ => .fault
      | .okay w, .read _ _ => .okay w
      | .okay _, .write _ _ => .okay 0) :: rest)

/-- The end of a plain requester's transaction (02 R29, R37; 06 R114, R116), by its last answer or by the timeout, when its piece is the request's
last: the port goes to IDLE and the master gets its response, FAULT if a word was FAULT, a READ's words with 0x00000000 for a word
recorded FAULT. When beats are left (02 R27, R28, R37), the next piece begins at the beat after it, its outcome and words kept: where the rest
of a WRITE is foreign it is refused and the response is the highest of all the outcomes; where the rest of a READ lies in a record of which
the port is neither writer nor reader, it becomes the port's next plain transaction. Nothing else changes. -/
def Obligations.PlainTransactionsAnswerTheirPiece : Prop :=
  (∀ (s : State) (p : Port) (tr : Transaction) (f : List Answer → List Answer) (i : Instr) (c : Cause) (x : Piece) (r : Request)
    (rest : List Request), s.AtRest → s.Ends (.plain p) tr (f tr.answers) → s.EndsBy tr i c f →
    (s.port p).service.piece = some x → x.wait = .memory → (s.port p).queue = r :: rest →
    (s.port p).service.next + x.beats = r.beats →
    ∃ t, exec i s = .next t ∧ t.mem.outstanding = none ∧
      (s.port p).responses ++
        [⟨worst ((s.port p).service.outcomes ++ [if (f tr.answers).any Answer.isFault then .fault else .okay]),
          if isRead r then (s.port p).service.words ++ (f tr.answers).map Answer.word else []⟩] <+: (t.port p).responses ∧
      t.regions = s.regions ∧ t.timebase = s.timebase ∧ t.engine = s.engine ∧
      (∀ k : Fin 4096, (cell t.versions k).version = (cell s.versions k).version)) ∧
  (∀ (s : State) (p : Port) (tr : Transaction) (f : List Answer → List Answer) (i : Instr) (c : Cause) (x : Piece) (r : Request)
    (y : Spot), s.AtRest → s.Ends (.plain p) tr (f tr.answers) → s.EndsBy tr i c f →
    (s.port p).service.piece = some x → x.wait = .memory → (s.port p).queue = [r] →
    r.address.toNat + 4 * (r.beats - 1) ≤ 0xFFFFFFFC →
    let m := (s.port p).service.next + x.beats
    let outcomes := (s.port p).service.outcomes ++ [if (f tr.answers).any Answer.isFault then .fault else .okay]
    m < r.beats → s.RestWithin r m y → (s.definition y.region).writer ≠ p →
    (isRead r = false → exec i s = .next (((s.setMem { s.mem with outstanding := none }).post (.writeRefused .foreign) y.region p
      y.record (s.version y.region y.record)).setPort p { s.port p with
        queue := []
        service := .fresh
        responses := (s.port p).responses ++ [⟨worst (outcomes ++ [.refused]), []⟩] })) ∧
    (isRead r = true → (s.definition y.region).readers.get p = false →
      exec i s = .next (((s.setMem { s.mem with outstanding := none }).setPlainRequest p
        (some (.read (beatAddress r m) (r.beats - m)))).setPort p { s.port p with
          service := ⟨m, outcomes, (s.port p).service.words ++ (f tr.answers).map Answer.word,
            some ⟨r.beats - m, some y, .memory⟩⟩ })))

/-- A read-own piece at the end of its memory read, by its last answer or by the timeout (02 R34, R35; 06 R114, R116), when it is the request's last: a byte the snapshot supplies has the
snapshot's value, any other memory's, 0x00 where memory's word was FAULT; the version word is the snapshot's; the outcome is FAULT if a word
of the read was FAULT, else TORN if the snapshot's mark was. The region table plays no part. -/
def Obligations.ReadOwnAssemblesFromItsSnapshot : Prop :=
  ∀ (s : State) (p : Port) (tr : Transaction) (f : List Answer → List Answer) (i : Instr) (c : Cause) (x : Piece) (snap : Snapshot)
    (r : Request) (rest : List Request), s.AtRest → s.Ends (.plain p) tr (f tr.answers) → s.EndsBy tr i c f →
    (s.port p).service.piece = some x → x.wait = .readOwn snap → (s.port p).queue = r :: rest → isRead r = true →
    (s.port p).service.next + x.beats = r.beats →
    let answers := f tr.answers
    ∃ t words, exec i s = .next t ∧ words.length = snap.supplied.length ∧
      (s.port p).responses ++
        [⟨worst ((s.port p).service.outcomes ++
            [if answers.any Answer.isFault then .fault else if snap.torn = .torn then .torn else .okay]),
          (s.port p).service.words ++ words⟩] <+: (t.port p).responses ∧
      (∀ k, (h : k < words.length) →
        (snap.versionWord = some (snap.offset + k) → words[k] = snap.version.setWidth 32) ∧
        (snap.versionWord ≠ some (snap.offset + k) → ∀ i : Fin 4,
          (words[k]).extractLsb' (8 * i.val) 8 =
            if (snap.supplied.getD k ⟨0, 0⟩).enables.getLsbD i.val then
              (snap.supplied.getD k ⟨0, 0⟩).data.extractLsb' (8 * i.val) 8
            else if snap.firstRead ≤ k then
              ((answers[k - snap.firstRead]?).getD .fault).word.extractLsb' (8 * i.val) 8
            else 0))

/-- MEMORY_TIMEOUT (06 R114): in the microsecond 64 µs after the grant the transaction ends, and the FAULT of each word still UNANSWERED is handed
on: a plain piece that is its request's last and has such a word gives the response FAULT, with 0x00000000 for such a word of a READ and
memory's data for a word answered OKAY (02 R29, R37). In any other microsecond, and with the port IDLE, nothing changes (log 6, log 7). A
discarded transaction ends with nothing handed on (R118). -/
def Obligations.TheTimeoutEndsTheTransaction : Prop :=
  ∀ s : State, s.AtRest →
    (s.mem.outstanding = none → exec .memoryTimeout s = .next s) ∧
    (∀ tr, s.mem.outstanding = some tr →
      ((s.timebase - tr.grantTime).toNat ≠ 64 → exec .memoryTimeout s = .next s) ∧
      ((s.timebase - tr.grantTime).toNat = 64 →
        ∃ t, exec .memoryTimeout s = .next t ∧ t.mem.outstanding = none ∧ t.timebase = s.timebase ∧
          t.mem.tagCounter = s.mem.tagCounter ∧ t.mem.ring = s.mem.ring) ∧
      ((s.timebase - tr.grantTime).toNat = 64 → tr.discard = true →
        exec .memoryTimeout s = .next (s.setMem { s.mem with outstanding := none })) ∧
      (∀ (p : Port) (x : Piece) (r : Request) (rest : List Request), (s.timebase - tr.grantTime).toNat = 64 →
        tr.discard = false → tr.requester = .plain p → .unanswered ∈ tr.answers →
        (s.port p).service.piece = some x → x.wait = .memory → (s.port p).queue = r :: rest →
        (s.port p).service.next + x.beats = r.beats →
        ∃ t, exec .memoryTimeout s = .next t ∧
          (s.port p).responses ++
            [⟨.fault, if isRead r then (s.port p).service.words ++
                tr.answers.map (fun y => match y with | .okay w => w | .fault => 0 | .unanswered => 0)
              else []⟩] <+: (t.port p).responses))

/-! ### Commits (04) and events (07) -/

/-- COMMIT_TAKE (04 R69, R70, R72, R73): the IDLE engine takes the buffer earliest in the close order that is CLOSED with wait count 0 and has
no buffer of its record before it; the buffer goes to COMMITTING, and the burst is requested: from the lowest to the highest of the staged
words and the version word, the version word with the entry's version plus one and all enables on, a staged word with its image and mask,
any other word zero with all enables off. Nothing else changes. The engine takes nothing unless it is IDLE and a buffer is eligible (04
R68, R69, R71). CAPTURE_REQUEST (05 R95, R91): with no capture in REQUESTING or READING, the one at the front requests its burst, every
word UNANSWERED; otherwise nothing changes. -/
def Obligations.EnginesRequestTheirBursts : Prop :=
  (∀ (s : State) (before after : List BufId) (b : BufId), s.engine = .idle → s.pool.closeOrder = before ++ b :: after →
    let x := s.buffer b
    let d := s.definition x.region
    let free : List BufId → BufId → Prop := fun l c => (s.buffer c).state = .closed ∧ (s.buffer c).waitCount = 0 ∧
      ∀ e ∈ l, (s.buffer e).ofRecord (s.buffer c).region (s.buffer c).record = false
    free before b → (∀ l c m, before = l ++ c :: m → ¬ free l c) →
    ∀ lo hi, (let reached := fun k => k < d.recordWords ∧ (cellD x.mask k 0 ≠ 0 ∨ d.versionWord = some k)
      reached lo ∧ reached hi ∧ ∀ k, reached k → lo ≤ k ∧ k ≤ hi) →
    let words : List WriteWord := (run lo (hi + 1 - lo)).map fun k =>
      if d.versionWord = some k then ⟨(s.version x.region x.record + 1).setWidth 32, 0xF⟩
      else if cellD x.mask k 0 = 0 then ⟨0, 0⟩ else ⟨cellD x.image k 0, cellD x.mask k 0⟩
    exec .commitTake s = .next
      (((s.setBuffer b { x with state := .committing }).setMem { s.mem with
          commit := some (.write (d.base + BitVec.ofNat 32 (4 * (d.recordWords * x.record + lo))) words) }).setEngine
        (.requesting ⟨b, lo, words, List.replicate (hi + 1 - lo) .unanswered⟩))) ∧
  (∀ s : State, (s.engine ≠ .idle ∨ ∀ before after b, s.pool.closeOrder = before ++ b :: after →
      (s.buffer b).state ≠ .closed ∨ (s.buffer b).waitCount ≠ 0 ∨
        ∃ e ∈ before, (s.buffer e).ofRecord (s.buffer b).region (s.buffer b).record = true) →
    exec .commitTake s = .next s) ∧
  (∀ s : State,
    (s.captures = [] ∨ (∃ c ∈ s.captures, c.state ≠ .queued) → exec .captureRequest s = .next s) ∧
    (∀ c cs, s.captures = c :: cs → (∀ x ∈ s.captures, x.state = .queued) →
      let d := s.definition c.region
      exec .captureRequest s = .next ((s.setCaptures
        ({ c with state := .requesting, answers := List.replicate c.count .unanswered } :: cs)).setMem { s.mem with
          capture := some (.read (d.base + BitVec.ofNat 32 (4 * (d.recordWords * c.record + c.first))) c.count) })))

/-- A commit completes with its transaction's end, by the last answer or the timeout (01 R17, R18; 04 R75 to R79), with no held write to examine:
the record's version advances by one; its mark goes TORN if a word was FAULT, CLEAN if none was, the mask covers the record and the buffer
is not pre-torn, else stays; no other entry changes; the buffer goes to FREE and leaves the close order; at fault every other non-FREE
buffer of the record is pre-torn and RECORD_TORN with detail COMMIT_FAULT and the advanced version is posted before any WATCH_MATCH. -/
def Obligations.ACommitCompletionSettlesItsRecord : Prop :=
  ∀ (s : State) (tr : Transaction) (job : CommitJob) (f : List Answer → List Answer) (i : Instr) (c : Cause), s.AtRest →
    s.pool.holds = [] → s.Ends .commit tr (f tr.answers) → s.engine = .writing job →
    s.EndsBy tr i c f →
    let x := s.buffer job.buffer
    let d := s.definition x.region
    let k := d.versionBase + x.record
    let e := s.entry x.region x.record
    let faulted : Prop := (f job.answers).any Answer.isFault = true
    ∃ t, exec i s = .next t ∧ t.mem.outstanding = none ∧
      t.versions = putD s.versions k ⟨e.version + 1,
        if faulted then .torn else if covers d x.mask = true ∧ x.preTorn = false then .clean else e.torn⟩ ∧
      (t.buffer job.buffer).state = .free ∧ t.pool.closeOrder = s.pool.closeOrder.erase job.buffer ∧
      (∀ b, b ≠ job.buffer → (t.buffer b).mask = (s.buffer b).mask ∧ (t.buffer b).image = (s.buffer b).image ∧
        (t.buffer b).preTorn = ((s.buffer b).preTorn ||
          ((f job.answers).any Answer.isFault && (s.buffer b).ofRecord x.region x.record))) ∧
      t.engine.current ≠ some job.buffer ∧
      (faulted → s.events.queueMask.getLsbD 5 = true → s.events.queue.length < 32 →
        s.events.queue ++ [⟨s.events.sequence, .recordTorn .commitFault, x.region, x.writer, x.record, e.version + 1, s.timebase⟩]
          <+: t.events.queue) ∧
      t.ports = s.ports ∧ t.views = s.views ∧ t.captures = s.captures ∧ t.timebase = s.timebase

/-- Watches at a commit's completion (07 R128, R129; 04 R78), by the last answer or the timeout: a watch that is ACTIVE, names the committed record
or ANY, and whose word lies in the burst with every byte its mask selects enabled and answered OKAY is evaluated; on a match a ONCE watch goes to
SPENT, a CHANGED one takes the committed bits under its mask into its reference, and WATCH_MATCH is posted with the watch's index, the region,
the writer, the record and the advanced version, in ascending index, after RECORD_TORN where the commit faulted. Any other watch stays as it
was, and no other event is posted. -/
def Obligations.WatchesAreEvaluatedAtACommit : Prop :=
  ∀ (s : State) (tr : Transaction) (job : CommitJob) (f : List Answer → List Answer) (i : Instr) (c : Cause), s.AtRest →
    s.pool.holds = [] → s.Ends .commit tr (f tr.answers) → s.EndsBy tr i c f → s.engine = .writing job →
    let x := s.buffer job.buffer
    (s.definition x.region).versionBase + x.record < 4096 →
    let advanced := (s.entry x.region x.record).version + 1
    let answers := f job.answers
    let watch : WatchIx → Watch := fun j => cell s.events.watches j
    let hit : WatchIx → Word → Prop := fun j data =>
      let w := watch j
      let equal : Prop := data &&& w.mask = w.reference &&& w.mask
      w.state = .active ∧ w.region = x.region ∧ (w.record = none ∨ w.record = some x.record) ∧ job.first ≤ w.offset ∧
      (∃ y a, job.words[w.offset - job.first]? = some y ∧ y.data = data ∧ answers[w.offset - job.first]? = some a ∧
        ∀ k : Fin 4, w.mask.extractLsb' (8 * k.val) 8 ≠ 0 → y.enables.getLsbD k.val = true ∧ a.isOkay = true) ∧
      (match w.condition with | .equal => equal | .notEqual => ¬ equal | .changed => ¬ equal)
    ∃ t, exec i s = .next t ∧
      (∀ j, (∀ data, ¬ hit j data) → cell t.events.watches j = watch j) ∧
      (∀ j data, hit j data → cell t.events.watches j = { watch j with
        state := match (watch j).mode with | .once => .spent | .every => .active
        reference := match (watch j).condition with
          | .changed => ((watch j).reference &&& ~~~ (watch j).mask) ||| (data &&& (watch j).mask)
          | .equal => (watch j).reference
          | .notEqual => (watch j).reference }) ∧
      (∀ hits : List WatchIx, hits.Pairwise (· < ·) → (∀ j, j ∈ hits ↔ ∃ data, hit j data) →
        let torn : EventUnit := if answers.any Answer.isFault then
          s.events.post s.timebase (.recordTorn .commitFault) x.region x.writer x.record advanced else s.events
        t.events = { hits.foldl (fun e j => e.post s.timebase (.watchMatch j) x.region x.writer x.record advanced) torn with
          watches := t.events.watches })

/-- Posting an event (07 R130): dropped without trace when its kind is not in the queue mask; else the sequence counter advances, and the event is
appended with the counter's value when fewer than 32 are queued, or lost and counted, up to 255. -/
def Obligations.PostingKeepsDropsOrLosesTheEvent : Prop :=
  ∀ (s : State) (body : EventBody) (r : RegionId) (p : Port) (k : Nat) (v : Half),
    let t := s.post body r p k v
    let kept := s.events.queueMask.getLsbD ((codeOfKind body).toNat - 1)
    (kept = false → t = s) ∧
    (kept = true → t.events.sequence = s.events.sequence + 1 ∧ t.events.watches = s.events.watches) ∧
    (kept = true → s.events.queue.length < 32 →
      t.events.queue = s.events.queue ++ [⟨s.events.sequence, body, r, p, k, v, s.timebase⟩] ∧ t.events.lost = s.events.lost) ∧
    (kept = true → ¬ s.events.queue.length < 32 → s.events.lost ≤ 255 →
      t.events.queue = s.events.queue ∧ t.events.lost = min 255 (s.events.lost + 1))

/-! ### Captures (05) -/

/-- A capture completes when its last word answers and none was FAULT (05 R96, R97), its port's piece neither waiting on the view nor for one: the view
is HELD from this moment, each word of the run that was not filled takes memory's value in the bytes no basis buffer supplied, the filled
words keep theirs, and the wait counts of its hold set fall by one. -/
def Obligations.ACompletedCaptureFillsItsView : Prop :=
  ∀ (s : State) (tr : Transaction) (a : MemAnswer) (c : Capture) (cs : List Capture) (v : ViewIx), s.AtRest →
    s.captures = c :: cs → c.view = some v → c.holdSet.Nodup →
    s.Ends .capture tr (answerFirst tr.answers (recorded tr.request a)) → c.answers = tr.answers →
    let answers := answerFirst tr.answers (recorded tr.request a)
    (∀ y ∈ answers, y.isFault = false) →
    (∀ x, (s.port c.port).service.piece = some x → x.wait ≠ .onView v ∧ x.wait ≠ .forView) →
    ∃ t, exec (.memoryAnswer tr.tag a) s = .next t ∧ t.mem.outstanding = none ∧ t.captures = cs ∧
      (t.view c.port v).state = .held ∧ (t.view c.port v).completeTime = s.timebase ∧
      (t.view c.port v).version = (s.view c.port v).version ∧ (t.view c.port v).torn = (s.view c.port v).torn ∧
      (∀ (k : Fin 16) (i : Fin 4),
        let y := (answers[k.val - c.first]?).getD .fault
        let inRun : Prop := c.first ≤ k.val ∧ k.val < c.first + answers.length
        cell (t.view c.port v).fill k = (cell (s.view c.port v).fill k || decide inRun) ∧
        (cell (t.view c.port v).image k).extractLsb' (8 * i.val) 8 =
          if inRun ∧ cell (s.view c.port v).fill k = false ∧ (cell (s.view c.port v).supplied k).getLsbD i.val = false then
            y.word.extractLsb' (8 * i.val) 8
          else (cell (s.view c.port v).image k).extractLsb' (8 * i.val) 8) ∧
      (∀ b, (t.buffer b).waitCount = if b ∈ c.holdSet then (s.buffer b).waitCount - 1 else (s.buffer b).waitCount) ∧
      t.versions = s.versions ∧ t.ports = s.ports ∧ t.events = s.events

/-- A capture that faults (05 R102, R97), its port's piece neither waiting on the view nor for one: its view goes to FREE, MEMORY_FAULT is posted with the
record's version as it stands and the lowest word offset of the burst recorded FAULT, the wait counts of its hold set fall, and no entry or
mark changes. -/
def Obligations.AFaultedCaptureReleasesItsView : Prop :=
  ∀ (s : State) (tr : Transaction) (f : List Answer → List Answer) (i : Instr) (e : Cause) (c : Capture) (cs : List Capture) (v : ViewIx) (lo : Nat),
    s.AtRest → s.ViewsLawful → s.captures = c :: cs → c.view = some v → c.holdSet.Nodup →
    s.Ends .capture tr (f tr.answers) → c.answers = tr.answers →
    s.EndsBy tr i e f →
    (f tr.answers)[lo]? = some .fault → (∀ k, k < lo → (f tr.answers)[k]? ≠ some .fault) →
    (∀ x, (s.port c.port).service.piece = some x → x.wait ≠ .onView v ∧ x.wait ≠ .forView) →
    ∃ t, exec i s = .next t ∧ t.mem.outstanding = none ∧ t.captures = cs ∧
      (t.view c.port v).state = .free ∧ v ∉ (t.views.get c.port).useList ∧
      t.events = (s.post (.memoryFault (c.first + lo)) c.region c.port c.record (s.version c.region c.record)).events ∧
      (∀ b, (t.buffer b).waitCount = if b ∈ c.holdSet then (s.buffer b).waitCount - 1 else (s.buffer b).waitCount) ∧
      (∀ b, (t.buffer b).state = (s.buffer b).state) ∧ t.versions = s.versions ∧ t.ports = s.ports

/-- A piece waiting on a view is answered when its capture ends, by the last answer or the timeout (05 R96, R98, R102), when it is the request's last:
FAULT with zero words when the capture faults; else from the filled view, with the view's own indicator: the version word is the view's version;
any other word has, in each byte, the capture's answer where the word lies in its run, was not filled and had no byte supplied there, and the
view's byte elsewhere. A piece that awaits a view (R88) is formed again when the end of a capture makes a view of its port HELD or FREE: it opens
that view for its record (R87), and goes on from it. -/
def Obligations.AWaitingReadIsAnsweredByItsCapture : Prop :=
  (∀ (s : State) (tr : Transaction) (f : List Answer → List Answer) (i : Instr) (e : Cause) (c : Capture) (cs : List Capture) (v : ViewIx)
    (x : Piece) (spot : Spot) (r : Request) (rest : List Request), s.AtRest →
    s.captures = c :: cs → c.view = some v → s.Ends .capture tr (f tr.answers) → s.EndsBy tr i e f → c.answers = tr.answers →
    (s.port c.port).service.piece = some x → x.wait = .onView v → x.spot = some spot →
    (s.port c.port).queue = r :: rest → isRead r = true → (s.port c.port).service.next + x.beats = r.beats →
    let answers := f tr.answers
    let old := s.view c.port v
    ∃ t words, exec i s = .next t ∧ words.length = x.beats ∧
      (s.port c.port).responses ++
        [⟨worst ((s.port c.port).service.outcomes ++ [if answers.any Answer.isFault then .fault
            else if old.torn = .torn then .torn else .okay]),
          (s.port c.port).service.words ++ words⟩] <+: (t.port c.port).responses ∧
      (answers.any Answer.isFault = true → words = List.replicate x.beats 0) ∧
      (answers.any Answer.isFault = false → ∀ j, (h : j < words.length) →
        let k := spot.offset + j
        let inRun : Prop := c.first ≤ k ∧ k < c.first + answers.length
        ((s.definition spot.region).versionWord = some k → words[j] = old.version.setWidth 32) ∧
        ((s.definition spot.region).versionWord ≠ some k → k < 16 → ∀ b : Fin 4,
          (words[j]).extractLsb' (8 * b.val) 8 =
            if inRun ∧ cellD old.fill k false = false ∧ (cellD old.supplied k 0).getLsbD b.val = false then
              ((answers[k - c.first]?).getD .fault).word.extractLsb' (8 * b.val) 8
            else (cellD old.image k 0).extractLsb' (8 * b.val) 8))) ∧
  (∀ (s : State) (tr : Transaction) (f : List Answer → List Answer) (i : Instr) (e : Cause) (c : Capture) (cs : List Capture) (v : ViewIx)
    (n : Nat) (spot : Spot) (r : Request), s.AtRest → s.ViewsLawful →
    s.captures = c :: cs → c.view = some v → s.Ends .capture tr (f tr.answers) → s.EndsBy tr i e f → c.answers = tr.answers →
    (s.port c.port).service.piece = some ⟨n, some spot, .forView⟩ → (s.port c.port).queue = [r] → isRead r = true →
    r.address.toNat + 4 * (r.beats - 1) ≤ 0xFFFFFFFC → 1 ≤ n → (s.port c.port).service.next + n = r.beats →
    s.RestWithin r (s.port c.port).service.next spot → (s.definition spot.region).writer ≠ c.port →
    (s.definition spot.region).readers.get c.port = true → s.viewOf c.port spot.region spot.record = none →
    ∃ t, exec i s = .next t ∧ s.JustOpened spot (t.view c.port v) ∧
      (FilledFor (t.view c.port v) spot n → (t.port c.port).queue = [] ∧ (t.port c.port).responses = (s.port c.port).responses ++
        [⟨worst ((s.port c.port).service.outcomes ++ [(s.viewResponse spot n (t.view c.port v)).status]),
          (s.port c.port).service.words ++ (s.viewResponse spot n (t.view c.port v)).data⟩]) ∧
      (¬ FilledFor (t.view c.port v) spot n →
        t.port c.port = { s.port c.port with service := { (s.port c.port).service with piece := some ⟨n, some spot, .onView v⟩ } }) ∧
      (¬(FilledFor (t.view c.port v) spot n ∧ s.Releases spot n) → (t.view c.port v).state ≠ .free))

/-! ### The management link: frames (08) -/

/-- The check (08 R144): it starts from 0xFF; each byte of the run is combined by exclusive-or and taken through eight rounds, each of which shifts
the value left by one place and, if the bit shifted out was 1, combines 0x2F; after the last byte the value is the check. A COMMAND frame's check
is over its code and parameters, a result's over completion code, length and data, the status record's over its seven bytes; and the manual's
three examples. -/
def Obligations.TheCheckIsCrc8 : Prop :=
  crc8 [] = 0xFF ∧
  (∀ (l : List Byte) (b : Byte), crc8 (l ++ [b]) = crcRound^[8] (crc8 l ^^^ b)) ∧
  (∀ v : Byte, crcRound v = if v.getLsbD 7 = true then (v <<< 1) ^^^ 0x2F#8 else v <<< 1) ∧
  (∀ c : Command, commandBytes c = (codeOfCommand c :: paramBytes c) ++ [crc8 (codeOfCommand c :: paramBytes c)]) ∧
  (∀ (c : Completion) (data : List Byte), resultBytes c data = ([codeOfCompletion c, BitVec.ofNat 8 data.length] ++ data) ++
    [crc8 ([codeOfCompletion c, BitVec.ofNat 8 data.length] ++ data)]) ∧
  (∀ s : State, ∃ record : List Byte, record.length = 7 ∧ statusBytes s = record ++ [crc8 record]) ∧
  commandBytes .identify = [0x01, 0x6D] ∧ commandBytes (.activate 0x02) = [0x11, 0x02, 0x2A] ∧
  resultBytes .done [] = [0x00, 0x00, 0xB8]

/-- Each command's frame carries its code, the number of parameter bytes its code fixes, and its check, and reads back as that command with every
parameter as sent (08 R143, R144, R150, R155, R157 to R161). -/
def Obligations.CommandBytesReadBack : Prop :=
  ∀ c : Command, paramCount (codeOfCommand c) = some (paramBytes c).length ∧
    parseCommand (codeOfCommand c) (paramBytes c) = some c ∧
    judge (commandBytes c) (commandBytes c).length = .execute c ∧ (commandBytes c).length ≤ 23

/-- A command row is the whole COMMAND frame that spells it (08 R140, R142, R143, R145; log 4), in every state: taken, refused, or its bytes going to
a chip-select period already open. COMMAND_FRAME with a ready link (08 R140, R143): a frame that spells a command is taken, presents 0x00 on every
byte, and the command executes at its end. -/
def Obligations.CommandRowsAreWholeCommandFrames : Prop :=
  (∀ (c : Command) (s : State), exec (rowOf c) s = exec (.commandFrame (.whole (commandBytes c))) s) ∧
  (∀ (c : Command) (s : State), s.linkReady → exec (.commandFrame (.whole (commandBytes c))) s = .next
    ((s.setLink { s.link with presented := zeros (8 * frameLength c) }).execute c))

/-- A COMMAND frame taken in IDLE that fails a frame-level test (08 R143) gives that completion code with no data and reaches no block: FRAGMENT for the
opener alone, BAD_CODE for an unknown code whatever its length, FRAGMENT when too short, LENGTH when too long, BAD_CHECK on a wrong check. -/
def Obligations.BadCommandFramesGiveTheirOutcome : Prop :=
  ∀ (bytes : List Byte) (s : State), s.linkReady →
    let outcome := fun code : Completion => exec (.commandFrame (.whole bytes)) s = .next (s.setLink
      { s.link with state := .result (resultBytes code []) 0, presented := zeros (8 * (1 + bytes.length)) })
    (bytes = [] → outcome .fragment) ∧
    (∀ code rest, bytes = code :: rest →
      (paramCount code = none → outcome .badCode) ∧
      (∀ p, paramCount code = some p →
        (bytes.length < p + 2 → outcome .fragment) ∧ (p + 2 < bytes.length → outcome .length) ∧
        (bytes.length = p + 2 → rest[p]? ≠ some (crc8 (code :: rest.take p)) → outcome .badCheck)))

/-- COMMAND_FRAME in EXECUTING or RESULT, and ABANDON_FRAME in EXECUTING (08 R140, R141): refused; the last refusal records it, the part
presents 0x00, and the command or result stands. So does every command row. BAD_OPENER (08 R140, R141): a frame with any other opener is
ignored in IDLE, EXECUTING and RESULT alike; only the last refusal changes. ABANDON_FRAME (08 R149): in RESULT the result is discarded at
the frame's end and the link goes to IDLE; in IDLE it has no effect; every byte presents 0x00. A frame of whatever row that ends inside its
opener byte (08 R138) has no opener: its bits are presented as 0, and nothing else changes. -/
def Obligations.FramesRefusedIgnoredOrAbandoning : Prop :=
  (∀ (s : State) (bytes : List Byte), s.hardResetLine = false → s.link.frame = none →
    (∀ e, s.link.state = .executing e →
      exec (.commandFrame (.whole bytes)) s = .next (s.refuses (1 + bytes.length) .busy) ∧
      exec (.abandonFrame (.whole bytes)) s = .next (s.refuses (1 + bytes.length) .busy) ∧
      ∀ c, exec (rowOf c) s = .next (s.refuses (frameLength c) .busy)) ∧
    (∀ out pos, s.link.state = .result out pos →
      exec (.commandFrame (.whole bytes)) s = .next (s.refuses (1 + bytes.length) .resultPending) ∧
      ∀ c, exec (rowOf c) s = .next (s.refuses (frameLength c) .resultPending))) ∧
  (∀ (opener : Byte) (bytes : List Byte) (s : State), opener ∉ knownOpeners → s.hardResetLine = false → s.link.frame = none →
    exec (.badOpener opener (.whole bytes)) s = .next (s.refuses (1 + bytes.length) .badOpener)) ∧
  (∀ (s : State) (bytes : List Byte), s.hardResetLine = false → s.link.frame = none →
    ((∃ out pos, s.link.state = .result out pos) ∨ s.link.state = .idle) →
    exec (.abandonFrame (.whole bytes)) s = .next (s.setLink { s.link with
      state := .idle, presented := zeros (8 * (1 + bytes.length)) })) ∧
  (∀ (s : State) (cut : Fin 8) (i : Instr), (i = .commandFrame (.short cut) ∨ i = .resultFrame (.short cut) ∨
      i = .statusFrame (.short cut) ∨ i = .abandonFrame (.short cut) ∨ ∃ o, i = .badOpener o (.short cut)) →
    s.hardResetLine = false → s.link.frame = none →
    exec i s = .next (s.setLink { s.link with presented := zeros cut.val }))

/-- RESULT_FRAME (08 R147): in RESULT each whole byte presents the result byte at the read position and advances it, 0x00 past the end; a byte cut
short presents its first bits and does not advance; past the end at the frame's end the link goes to IDLE. In IDLE and EXECUTING it returns 0x00
and is no refusal. -/
def Obligations.ResultFramesDeliverTheResult : Prop :=
  ∀ (s : State) (bytes : List Byte) (cut : Fin 8), s.hardResetLine = false → s.link.frame = none →
    (∀ out pos, s.link.state = .result out pos → pos ≤ out.length →
      let next := min (pos + bytes.length) out.length
      exec (.resultFrame ⟨.opener, bytes, cut, true⟩) s = .next (s.setLink { s.link with
        state := if next = out.length then .idle else .result out next
        presented := zeros 8 ++ ((out.drop pos).take bytes.length ++
            List.replicate (bytes.length - (out.length - pos)) 0).flatMap bitsOf ++
          (bitsOf (out.getD next 0)).take cut.val })) ∧
    ((s.link.state = .idle ∨ ∃ e, s.link.state = .executing e) →
      exec (.resultFrame ⟨.opener, bytes, cut, true⟩) s = .next (s.setLink { s.link with
        presented := zeros (8 * (1 + bytes.length) + cut.val) }))

/-- STATUS_FRAME (08 R148, R156): it presents the record as it stands at the opener, its CRC-8, then 0x00, and the last refusal becomes NONE; nothing else
changes. -/
def Obligations.StatusFramesReportTheLink : Prop :=
  ∀ (s : State) (bytes : List Byte), s.hardResetLine = false → s.link.frame = none → (∀ l n, s.link.state ≠ .receiving l n) →
    let remaining : Nat := match s.link.state with
      | .result out pos => out.length - pos
      | .idle => 0
      | .executing _ => 0
      | .receiving _ _ => 0
    let record : List Byte :=
      [match s.link.state with | .idle => (0x00 : Byte) | .executing _ => 0x02 | .result _ _ => 0x03 | .receiving _ _ => 0x01] ++
      bytes2 (BitVec.ofNat 16 remaining) ++
      [codeOfRefusal s.link.lastRefusal, BitVec.ofNat 8 s.events.queue.length, BitVec.ofNat 8 s.events.lost,
        if s.events.attention then 0x01 else 0x00]
    exec (.statusFrame (.whole bytes)) s = .next (s.setLink { s.link with
      lastRefusal := .none
      presented := zeros 8 ++ ((record ++ [crc8 record]).take bytes.length ++
        List.replicate (bytes.length - 8) 0).flatMap bitsOf })

/-! ### The management link: commands (01, 02, 07, 08) -/

/-- IDENTIFY (08 R151, R161): DONE with the eleven bytes, the same in every state; nothing else changes. -/
def Obligations.IdentifyReturnsThePartsIdentity : Prop :=
  ∀ s : State, s.AtRest → s.linkReady →
    exec .identify s = .next (s.returns .identify .done
      [0x34, 0x16, 0x01, 0x03, 0x10, 0x10, 0x00, 0x10, 0x04, 0x08, 0x20])

/-- The seven region commands check the region index first (01 R1), then the region's state: an index above 15 gives BAD_PARAM and a state in which the
command is not allowed WRONG_STATE, with no data, and nothing else changes. -/
def Obligations.RegionCommandsCheckIndexThenState : Prop :=
  ∀ (s : State) (c : Command) (b : Byte) (allowed : RegionState → Prop), s.AtRest → s.linkReady →
    ((∃ d : DefineParams, c = .defineRegion d ∧ d.regionIndex = b ∧ allowed = fun x => x = .empty ∨ x = .defined) ∨
      (c = .activate b ∧ allowed = fun x => x = .defined) ∨
      (∃ m, c = .retire b m ∧ allowed = fun x => x = .active) ∨
      (c = .readRegion b ∧ allowed = fun _ => True) ∨
      (c = .clearRegion b ∧ allowed = fun x => x = .defined) ∨
      (∃ k, c = .readRecord b k ∧ allowed = fun x => x = .active) ∨
      (∃ k, c = .clearTorn b k ∧ allowed = fun x => x = .active)) →
    (15 < b.toNat → exec (rowOf c) s = .next (s.returns c .badParam [])) ∧
    (∀ r : RegionId, b.toNat = r.val → ¬ allowed (s.region r).state → exec (rowOf c) s = .next (s.returns c .wrongState []))

/-- DEFINE_REGION in EMPTY or DEFINED (01 R2, R3): with fields that pass R2's checks it replaces the whole entry by the definition sent and leaves it
DEFINED; with any that fails it gives BAD_PARAM; nothing else changes. -/
def Obligations.DefineRegionStoresALegalDefinition : Prop :=
  ∀ (s : State) (d : DefineParams) (r : RegionId), s.AtRest → s.linkReady → d.regionIndex.toNat = r.val →
    ((s.region r).state = .empty ∨ (s.region r).state = .defined) →
    (PassesR2 d → ∃ t, exec (.defineRegion d) s = .next t ∧
      t = (s.setRegion r ⟨.defined, t.definition r⟩).returns (.defineRegion d) .done [] ∧
      definitionBytes (t.definition r) = defineBytes d ∧ (t.definition r).Legal) ∧
    (¬ PassesR2 d → exec (.defineRegion d) s = .next (s.returns (.defineRegion d) .badParam []))

/-- READ_REGION (01 R13, 08 R157): the region's state and the 21 bytes of its definition, which for an EMPTY region are the EMPTY values;
nothing else changes. CLEAR_REGION of a DEFINED region (01 R14): the entry goes to EMPTY with the EMPTY values, every watch of the region
goes to UNUSED with the UNUSED values, and the data is how many watches that were not UNUSED already went so (DEDUCED, log 25). Nothing
else changes. -/
def Obligations.RegionsAreReadAndCleared : Prop :=
  (∀ (s : State) (b : Byte) (r : RegionId), s.AtRest → s.linkReady → b.toNat = r.val →
    exec (.readRegion b) s = .next (s.returns (.readRegion b) .done
      (codeOfRegionState (s.region r).state :: definitionBytes (s.definition r))) ∧
    (s.definition r = .emptyValues → definitionBytes (s.definition r) =
      List.replicate 14 0x00 ++ [0xFF] ++ List.replicate 6 0x00)) ∧
  (∀ (s : State) (b : Byte) (r : RegionId), s.AtRest → s.linkReady → s.unusedWatchesBlank → b.toNat = r.val →
    (s.region r).state = .defined →
    ∃ t, exec (.clearRegion b) s = .next t ∧
      t = ((s.setRegion r ⟨.empty, .emptyValues⟩).setEvents { s.events with watches := t.events.watches }).returns
        (.clearRegion b) .done [byteOf (allWatches.filter fun i =>
          (cell s.events.watches i).state ≠ .unused ∧ (cell s.events.watches i).region = r).length] ∧
      (∀ i, (cell s.events.watches i).region = r → cell t.events.watches i = .unusedValues) ∧
      (∀ i, (cell s.events.watches i).region ≠ r → cell t.events.watches i = cell s.events.watches i))

/-- ACTIVATE of a DEFINED region (01 R7): CONFLICT if some region in ACTIVATING, ACTIVE or DRAINING shares an address or a version entry with it; else the
region goes to ACTIVATING and the link stays in EXECUTING; nothing else changes. -/
def Obligations.ActivateComparesThenTakes : Prop :=
  ∀ (s : State) (b : Byte) (r : RegionId), s.AtRest → s.linkReady → b.toNat = r.val → (s.region r).state = .defined →
    1 ≤ (s.definition r).recordCount →
    let conflict : Prop := ∃ q, q ≠ r ∧ ((s.region q).state = .activating ∨ (s.region q).state = .active ∨ (s.region q).state = .draining) ∧
      (shareAddress (s.definition r) (s.definition q) ∨ shareEntry (s.definition r) (s.definition q))
    (conflict → exec (.activate b) s = .next (s.returns (.activate b) .conflict [])) ∧
    (¬ conflict → exec (.activate b) s = .next
      ((s.setRegion r ⟨.activating, s.definition r⟩).takes (.activate b) (.activate r 0)))

/-- RETIRE of an ACTIVE region (01 R10, R12; 03 R58, R65; 05 R106): its views are released, its GATHERING buffers abandoned or closed, its held write
ended, and the span is plain from the taking; it completes at once, with the counts, when no buffer of the region is left, and else executes. A
drain mode without a code gives BAD_PARAM and changes nothing. Under CLOSE each GATHERING buffer of the region is CLOSED with its bytes. With no
held write and no piece that needs a view, under ABANDON each is FREE and one UPDATE_ABANDONED with detail RETIRE is posted for each, in the
order of the gathering list, and under CLOSE they join the close order in that order and no event is posted. A held write of the region then
ends REFUSED and WRITE_REFUSED with detail RETIRED follows (R58). A piece that waited on a released view is formed again as plain (02 R36): one
memory read of the words it still lacks. -/
def Obligations.RetireDrainsTheRegion : Prop :=
  ∀ (s : State) (b mode : Byte) (r : RegionId), s.AtRest → s.linkReady → s.RegionsLawful → s.PoolLawful → s.UpdatesOwned →
    b.toNat = r.val → (s.region r).state = .active →
    (1 < mode.toNat → exec (.retire b mode) s = .next (s.returns (.retire b mode) .badParam [])) ∧
    (mode.toNat ≤ 1 →
      let gathering := allBuffers.filter fun c => (s.buffer c).state = .gathering ∧ (s.buffer c).region = r
      let views := allPortViews.filter fun pv => (s.view pv.1 pv.2).state ≠ .free ∧ (s.view pv.1 pv.2).region = r
      let abandoned := if mode = 0 then gathering.length else 0
      ∃ t, exec (.retire b mode) s = .next t ∧
        (∀ p v, (t.view p v).state ≠ .free → (t.view p v).region ≠ r) ∧
        (∀ c, (t.buffer c).state = .gathering → (t.buffer c).region ≠ r) ∧ (∀ h ∈ t.pool.holds, h.spot.region ≠ r) ∧
        (∀ a x, t.spotOf a = some x → x.region ≠ r) ∧
        (t.regionIdle r = false → (t.region r).state = .draining ∧
          t.link.state = .executing (.retire r abandoned 0 views.length)) ∧
        (t.regionIdle r = true → (t.region r).state = .defined ∧
          t.link.state = .result (resultBytes .done [byteOf abandoned, 0, byteOf views.length]) 0) ∧
        t.definition r = s.definition r ∧ (∀ q, q ≠ r → t.region q = s.region q) ∧
        (∀ k : Fin 4096, (cell t.versions k).version = (cell s.versions k).version) ∧
        (mode = 1 → ∀ c ∈ gathering, (t.buffer c).state = .closed ∧ (t.buffer c).image = (s.buffer c).image ∧
          (t.buffer c).mask = (s.buffer c).mask) ∧
        (let inOrder := (s.pool.gathering.get (s.definition r).writer).filter fun c => (s.buffer c).region = r
         let posted : EventUnit := if mode = 0 then s.abandonEvents .retire inOrder else s.events
         (s.pool.holds = [] → s.NoPieceNeedsAView →
          t.events = posted ∧ t.ports = s.ports ∧
          (mode = 0 → (∀ c ∈ gathering, (t.buffer c).state = .free) ∧ t.pool.closeOrder = s.pool.closeOrder) ∧
          (mode = 1 → t.pool.closeOrder = s.pool.closeOrder ++ inOrder)) ∧
         (∀ h w, s.pool.holds = [h] → h.spot.region = r → s.NoPieceNeedsAView → (s.port h.port).queue = [w] →
          (s.port h.port).service.next + h.words.length = w.beats →
          t.pool.holds = [] ∧
          t.events = posted.post s.timebase (.writeRefused .retired) r h.port h.spot.record (s.version r h.spot.record) ∧
          t.port h.port = { s.port h.port with
            queue := []
            service := .fresh
            responses := (s.port h.port).responses ++ [⟨worst ((s.port h.port).service.outcomes ++ [.refused]),
              if isRead w then (s.port h.port).service.words else []⟩] })) ∧
        (∀ p v n y w, s.pool.holds = [] → (s.port p).service.piece = some ⟨n, some y, .onView v⟩ → (s.view p v).state ≠ .free →
          (s.view p v).region = r → (s.port p).queue = [w] → isRead w = true → 1 ≤ n → (s.port p).service.next + n = w.beats →
          w.address.toNat + 4 * (w.beats - 1) ≤ 0xFFFFFFFC → y.region = r → s.RestWithin w (s.port p).service.next y →
          t.mem.pendingOf (.plain p) = some (.read (beatAddress w (s.port p).service.next) n) ∧
          t.port p = { s.port p with service := { (s.port p).service with piece := some ⟨n, none, .memory⟩ } }))

/-- DRAIN_COMPLETE (01 R11, R12; 04 R79): the commit completion that frees the last buffer of a DRAINING region is counted, the region goes to
DEFINED, and the result is the abandoned, committed and released counts. FLUSH_PORT_COMPLETE (02 R41): the end of the reading capture it waits
for completes it with its two counts. RESTART_COMPLETE (08 R153): the end of the last of what RESTART waits for, a commit in flight or a
reading capture, completes it with its four counts. Each for the last answer and for the memory timeout; that arrival's own row is the same
step (the model's reading of the table's rows, log 5). -/
def Obligations.LongCommandsCompleteWithWhatTheyAwait : Prop :=
  (∀ (s : State) (tr : Transaction) (f : List Answer → List Answer) (i : Instr) (k : Cause) (job : CommitJob) (r : RegionId)
    (n c v : Nat), s.AtRest → s.PoolLawful → s.EndsBy tr i k f →
    s.Ends .commit tr (f tr.answers) → s.engine = .writing job →
    s.link.state = .executing (.retire r n c v) → (s.region r).state = .draining → (s.buffer job.buffer).region = r →
    (∀ b, b ≠ job.buffer → (s.buffer b).state = .free ∨ (s.buffer b).region ≠ r) →
    (∀ h ∈ s.pool.holds, h.spot.region ≠ r) →
    ∃ t, exec (.drainComplete k) s = .next t ∧ exec i s = .next t ∧
      (t.region r) = ⟨.defined, s.definition r⟩ ∧ t.regionIdle r = true ∧
      t.link.state = .result (resultBytes .done [byteOf n, byteOf (c + 1), byteOf v]) 0 ∧
      (∀ q, q ≠ r → t.region q = s.region q)) ∧
  (∀ (s : State) (tr : Transaction) (f : List Answer → List Answer) (i : Instr) (k : Cause) (n v : Nat), s.AtRest →
    s.EndsBy tr i k f → s.Ends .capture tr (f tr.answers) → s.captures ≠ [] →
    s.link.state = .executing (.flushPort n v true) →
    ∃ t, exec (.flushPortComplete k) s = .next t ∧ exec i s = .next t ∧
      t.link.state = .result (resultBytes .done [byteOf n, byteOf v]) 0 ∧ t.regions = s.regions) ∧
  (∀ (s : State) (tr : Transaction) (f : List Answer → List Answer) (i : Instr) (k : Cause) (g c v n : Nat) (w x : Bool), s.AtRest →
    s.EndsBy tr i k f → s.link.state = .executing (.restart g c v n w x) →
    (s.Ends .commit tr (f tr.answers) ∧ (∃ job, s.engine = .writing job) ∧ x = false) ∨
      (s.Ends .capture tr (f tr.answers) ∧ s.captures ≠ [] ∧ w = false) →
    ∃ t, exec (.restartComplete k) s = .next t ∧ exec i s = .next t ∧
      t.link.state = .result (resultBytes .done [byteOf g, byteOf c, byteOf v, byteOf n]) 0 ∧ t.regions = s.regions)

/-- READ_RECORD in an ACTIVE region (01 R21, 08 R158): a record index not below the record count gives BAD_PARAM; else DONE with 7 + 5n bytes:
the version, the mark, n, the CLOSED and COMMITTING buffers in close order and then the GATHERING one, and the views of U0, U1 and U2.
Nothing else changes. CLEAR_TORN in an ACTIVE region (01 R20): the record's mark goes CLEAN, its version stays, and the data is the mark
before; no buffer, no view and no other entry changes. A record index not below the record count gives BAD_PARAM. -/
def Obligations.RecordsAreReadAndCleaned : Prop :=
  (∀ (s : State) (b : Byte) (k : Half) (r : RegionId), s.AtRest → s.linkReady → s.PoolLawful → b.toNat = r.val →
    (s.region r).state = .active →
    ((s.definition r).recordCount ≤ k.toNat → exec (.readRecord b k) s = .next (s.returns (.readRecord b k) .badParam [])) ∧
    (k.toNat < (s.definition r).recordCount →
      let e := s.entry r k.toNat
      let buffers := s.basisOf r k.toNat ++ (s.gatheringOf r k.toNat).toList
      ∃ entries views : List Byte,
        exec (.readRecord b k) s = .next (s.returns (.readRecord b k) .done
          (bytes2 e.version ++ [if e.torn = .torn then 0x01 else 0x00, byteOf buffers.length] ++ entries ++ views)) ∧
        entries.length = 5 * buffers.length ∧ views.length = 3 ∧ buffers.length ≤ 16 ∧ buffers.Nodup ∧
        (∀ c, c ∈ buffers ↔ (s.buffer c).ofRecord r k.toNat = true ∧
          ((s.buffer c).state ≠ .gathering ∨ s.gatheringOf r k.toNat = some c)) ∧
        (∀ i c, buffers[i]? = some c → (entries.drop (5 * i)).take 5 =
          [codeOfBufferState (s.buffer c).state, codeOfPort (s.buffer c).writer, byteOf (bytesStaged (s.buffer c).mask),
            byteOf (if (s.buffer c).state = .gathering then 0 else (s.buffer c).waitCount),
            if (s.buffer c).preTorn then 0x01 else 0x00]) ∧
        (∀ p : Port, views[(codeOfPort p).toNat]? = some (if (∃ v, (s.view p v).ofRecord r k.toNat = true) then 0x01 else 0x00)))) ∧
  (∀ (s : State) (b : Byte) (k : Half) (r : RegionId), s.AtRest → s.linkReady → b.toNat = r.val → (s.region r).state = .active →
    ((s.definition r).recordCount ≤ k.toNat → exec (.clearTorn b k) s = .next (s.returns (.clearTorn b k) .badParam [])) ∧
    (k.toNat < (s.definition r).recordCount →
      exec (.clearTorn b k) s = .next
        ((s.setVersions (putD s.versions ((s.definition r).versionBase + k.toNat) ⟨(s.entry r k.toNat).version, .clean⟩)).returns
          (.clearTorn b k) .done [match (s.entry r k.toNat).torn with | .clean => 0x00 | .torn => 0x01])))

/-- SET_WATCH (07 R124): the watch index, the region index, the region not EMPTY, then the fields, in that order; with all passed the seven fields replace the
watch's and it goes to ACTIVE, and the data is the state before. Nothing else changes. -/
def Obligations.SetWatchChecksThenArms : Prop :=
  ∀ (s : State) (w : WatchParams), s.AtRest → s.linkReady →
    let fails := fun code : Completion => exec (.setWatch w) s = .next (s.returns (.setWatch w) code [])
    (7 < w.watch.toNat → fails .badParam) ∧
    (∀ i : WatchIx, w.watch.toNat = i.val →
      (15 < w.region.toNat → fails .badParam) ∧
      (∀ r : RegionId, w.region.toNat = r.val →
        ((s.region r).state = .empty → fails .wrongState) ∧
        ((s.region r).state ≠ .empty →
          let legal : Prop := (w.record = 0xFFFF ∨ w.record.toNat < (s.definition r).recordCount) ∧
            w.offset.toNat < (s.definition r).recordWords ∧ w.condition.toNat ≤ 2 ∧ w.mode.toNat ≤ 1
          (¬ legal → fails .badParam) ∧
          (legal → ∃ x : Watch, exec (.setWatch w) s = .next ((s.setEvents { s.events with watches := put s.events.watches i x }).returns
              (.setWatch w) .done [codeOfWatchState (cell s.events.watches i).state]) ∧
            x.state = .active ∧ x.region = r ∧ x.record = (if w.record = 0xFFFF then none else some w.record.toNat) ∧
            x.offset = w.offset.toNat ∧ x.mask = w.mask ∧ x.reference = w.reference ∧
            codeOfCondition x.condition = w.condition ∧ codeOfRepeat x.mode = w.mode))))

/-- CLEAR_WATCH (07 R126): an index outside 0 to 7 gives BAD_PARAM and changes no watch; else the watch goes to UNUSED with the UNUSED field
values, whatever its state was, and the data is the state before. Nothing else changes. READ_WATCH (07 R127, 08 R159): an index outside 0
to 7 gives BAD_PARAM; else DONE with the state and the seven fields; nothing else changes. -/
def Obligations.WatchesAreClearedAndRead : Prop :=
  (∀ (s : State) (b : Byte), s.AtRest → s.linkReady →
    (7 < b.toNat → exec (.clearWatch b) s = .next (s.returns (.clearWatch b) .badParam [])) ∧
    (∀ i : WatchIx, b.toNat = i.val →
      let blank : Watch := ⟨.unused, 0, some 0, 0, 0x00000000, 0x00000000, .equal, .once⟩
      exec (.clearWatch b) s = .next ((s.setEvents { s.events with watches := put s.events.watches i blank }).returns (.clearWatch b) .done
        [match (cell s.events.watches i).state with | .unused => 0x00 | .active => 0x01 | .spent => 0x02])) ∧
    (∀ i : WatchIx, b.toNat = i.val → (cell s.events.watches i).state = .unused → s.unusedWatchesBlank →
      exec (.clearWatch b) s = .next (s.returns (.clearWatch b) .done [0x00]))) ∧
  (∀ (s : State) (b : Byte), s.AtRest → s.linkReady →
    (7 < b.toNat → exec (.readWatch b) s = .next (s.returns (.readWatch b) .badParam [])) ∧
    (∀ i : WatchIx, b.toNat = i.val →
      let w := cell s.events.watches i
      exec (.readWatch b) s = .next (s.returns (.readWatch b) .done
        ([codeOfWatchState w.state, byteOf w.region.val] ++
          bytes2 (match w.record with | some k => BitVec.ofNat 16 k | none => 0xFFFF) ++ [byteOf w.offset] ++
          bytes4 w.mask ++ bytes4 w.reference ++ [codeOfCondition w.condition, codeOfRepeat w.mode]))))

/-- READ_EVENTS (07 R132): a maximum outside 1 to 8 gives BAD_PARAM and changes nothing; else the lost count, the number returned and that
many of the oldest events, fourteen bytes each, which leave the queue; the lost count goes to 0 and the line is re-evaluated. Nothing else
changes. SET_EVENT_MASKS (07 R133, 08 R159): an attention mask with any of bits 9 to 15 set gives BAD_PARAM and changes neither mask; else
both masks are replaced, the line is re-evaluated, the queue stands, and the result is DONE with no data. -/
def Obligations.EventsAreReadAndMasked : Prop :=
  (∀ (s : State) (n : Byte), s.AtRest → s.linkReady →
    (n.toNat = 0 ∨ 8 < n.toNat → exec (.readEvents n) s = .next (s.returns (.readEvents n) .badParam [])) ∧
    (1 ≤ n.toNat → n.toNat ≤ 8 →
      let m := min n.toNat s.events.queue.length
      ∃ (e : EventUnit) (data : List Byte),
        exec (.readEvents n) s = .next ((s.setEvents e).returns (.readEvents n) .done ([byteOf s.events.lost, byteOf m] ++ data)) ∧
        e = { s.events with queue := s.events.queue.drop m, lost := 0, attention := e.attention } ∧ e.attention = attentionOf e ∧
        data.length = 14 * m ∧
        ∀ i ev, i < m → s.events.queue[i]? = some ev → (data.drop (14 * i)).take 14 =
          [ev.sequence, codeOfKind ev.body, byteOf ev.region.val, codeOfPort ev.port] ++ bytes2 (BitVec.ofNat 16 ev.record) ++
            bytes2 ev.version ++ bytes2 (detailOf ev.body) ++ bytes4 ev.timestamp)) ∧
  (∀ (s : State) (q : Byte) (a : Half), s.AtRest → s.linkReady →
    (512 ≤ a.toNat → exec (.setEventMasks q a) s = .next (s.returns (.setEventMasks q a) .badParam [])) ∧
    (a.toNat < 512 → ∃ e : EventUnit,
      exec (.setEventMasks q a) s = .next ((s.setEvents e).returns (.setEventMasks q a) .done []) ∧
      e = { s.events with queueMask := q, attentionMask := e.attentionMask, attention := e.attention } ∧
      (∀ i, i < 9 → e.attentionMask.getLsbD i = a.getLsbD i) ∧
      (e.attention = true ↔ (∃ ev ∈ e.queue, a.getLsbD ((codeOfKind ev.body).toNat - 1) = true) ∨
        (e.lost ≠ 0 ∧ a.getLsbD 8 = true))))

/-- FLUSH_PORT (02 R40, R41; 03 R64; 05 R105): a port without a code gives BAD_PARAM and changes nothing; else the counts are the port's GATHERING buffers and
non-FREE views, and the command executes while a capture it cancelled is reading and else completes at its taking. Versions, regions, the engine, the watches and
masks, and every CLOSED or COMMITTING buffer's state and bytes stand; no request is dropped. With no held write and no piece of the port that needs a view, the
port's GATHERING buffers go to FREE with one UPDATE_ABANDONED with detail FLUSH for each, in the order of its gathering list, its views go to FREE and its use
list is empty, and no port changes. A piece that waited on a released view, or awaited one, is formed again (02 R36; 05 R88) and opens the port's
view 0 for its record. -/
def Obligations.FlushPortDiscardsThePortsCoherenceWork : Prop :=
  ∀ (s : State) (b : Byte), s.AtRest → s.linkReady → s.PoolLawful →
    (2 < b.toNat → exec (.flushPort b) s = .next (s.returns (.flushPort b) .badParam [])) ∧
    (∀ p : Port, codeOfPort p = b →
      let abandoned := (allBuffers.filter fun c => (s.buffer c).state = .gathering ∧ (s.buffer c).writer = p).length
      let released := (allViews.filter fun v => (s.view p v).state ≠ .free).length
      let reading : Prop := ∃ c ∈ s.captures, c.state = .reading ∧ c.port = p ∧ ∃ v, c.view = some v ∧ (s.view p v).state ≠ .free
      ∃ t, exec (.flushPort b) s = .next t ∧
        (reading → t.link.state = .executing (.flushPort abandoned released true)) ∧
        (¬ reading → t.link.state = .result (resultBytes .done [byteOf abandoned, byteOf released]) 0) ∧
        t.regions = s.regions ∧ t.engine = s.engine ∧ t.timebase = s.timebase ∧ t.events.watches = s.events.watches ∧
        t.events.queueMask = s.events.queueMask ∧ t.events.attentionMask = s.events.attentionMask ∧
        (∀ k : Fin 4096, (cell t.versions k).version = (cell s.versions k).version) ∧
        (∀ c, (s.buffer c).state = .closed ∨ (s.buffer c).state = .committing →
          (t.buffer c).state = (s.buffer c).state ∧ (t.buffer c).image = (s.buffer c).image ∧ (t.buffer c).mask = (s.buffer c).mask) ∧
        (∀ q, (t.port q).responses.length + (t.port q).queue.length = (s.port q).responses.length + (s.port q).queue.length) ∧
        (s.ViewsLawful → s.pool.holds = [] →
          ((∀ x, (s.port p).service.piece = some x → x.wait ≠ .forView ∧ ∀ v, x.wait ≠ .onView v) →
            (∀ c, (s.buffer c).state = .gathering → (s.buffer c).writer = p → (t.buffer c).state = .free) ∧
            t.pool.gathering = s.pool.gathering.set p [] ∧ (∀ v, (t.view p v).state = .free) ∧ (t.views.get p).useList = [] ∧
            t.events = s.abandonEvents .flush (s.pool.gathering.get p) ∧ t.ports = s.ports) ∧
          (∀ n y w x, (s.port p).service.piece = some x → x.beats = n → x.spot = some y →
            (x.wait = .forView ∨ ∃ v, x.wait = .onView v ∧ (s.view p v).state ≠ .free) → (s.port p).queue = [w] → isRead w = true →
            1 ≤ n → (s.port p).service.next + n = w.beats → w.address.toNat + 4 * (w.beats - 1) ≤ 0xFFFFFFFC →
            s.RestWithin w (s.port p).service.next y → (s.definition y.region).writer ≠ p →
            (s.definition y.region).readers.get p = true →
            s.JustOpened y (t.view p 0) ∧ t.events = s.abandonEvents .flush (s.pool.gathering.get p))))

/-- RESTART (03 R66; 04 R83; 05 R107; 07 R135; 08 R152, R153), with no piece waiting on a view or for one and no held write: every GATHERING and CLOSED buffer and
every view goes to FREE, no capture keeps a view or a discarded buffer in its hold set, the commit in flight goes on, the event queue, lost count and sequence
counter are 0 and the line is deasserted; it completes at once with its four counts unless a commit is in flight or a capture is reading (log 15). The region
and version tables, the watches, the masks and the ports stand. -/
def Obligations.RestartDiscardsUncommittedWork : Prop :=
  ∀ s : State, s.AtRest → s.linkReady → s.PoolLawful → s.ViewsLawful → s.pool.holds = [] → s.NoPieceNeedsAView →
    let gathering := (allBuffers.filter fun c => (s.buffer c).state = .gathering).length
    let closed := (allBuffers.filter fun c => (s.buffer c).state = .closed).length
    let released := (allPortViews.filter fun pv => (s.view pv.1 pv.2).state ≠ .free).length
    let committing : Bool := s.engine != .idle
    let reading : Bool := s.captures.any fun c => c.state == .reading
    ∃ t, exec .restart s = .next t ∧
      (∀ c, (t.buffer c).state = if (s.buffer c).state = .committing then .committing else .free) ∧
      (∀ p, t.pool.gathering.get p = []) ∧ t.engine = s.engine ∧
      (∀ p v, (t.view p v).state = .free) ∧ (∀ p, (t.views.get p).useList = []) ∧
      (∀ c ∈ t.captures, c.view = none ∧ ∀ b ∈ c.holdSet, (s.buffer b).state ≠ .closed) ∧
      t.events.queue = [] ∧ t.events.lost = 0 ∧ t.events.sequence = 0 ∧ t.events.attention = false ∧
      t.events.watches = s.events.watches ∧ t.events.queueMask = s.events.queueMask ∧
      t.events.attentionMask = s.events.attentionMask ∧
      t.regions = s.regions ∧ t.versions = s.versions ∧ t.ports = s.ports ∧ t.timebase = s.timebase ∧
      t.mem.outstanding = s.mem.outstanding ∧ t.mem.ring = s.mem.ring ∧
      (committing = false → reading = false → t.link.state =
        .result (resultBytes .done [byteOf gathering, byteOf closed, byteOf released, 0]) 0) ∧
      (committing = true ∨ reading = true → t.link.state =
        .executing (.restart gathering closed released (if committing then 1 else 0) committing reading))

/-! ### What every command keeps -/

/-- The event unit's law (07 R130, R134) is kept by every step. -/
def Obligations.EveryStepKeepsTheEventUnitLawful : Prop :=
  ∀ s t : State, s.events.Lawful → s.unusedWatchesBlank → step s = .next t → t.events.Lawful ∧ t.unusedWatchesBlank

/-- The region table's laws (01 R2, R7, R13) are kept by every step, and an entry moves only along the transitions of 01, 1.4: those of the
region commands and their completions, and hard reset's to EMPTY. -/
def Obligations.EveryStepKeepsTheRegionsLawful : Prop :=
  ∀ (c : Instr) (s t : State), s.RegionsLawful → s.AtRest → exec c s = .next t →
    t.RegionsLawful ∧
    ∀ r, (t.region r).state ≠ (s.region r).state →
      (c = .hardReset ∧ (t.region r).state = .empty) ∨
      ((s.region r).state, (t.region r).state) ∈ ([(.empty, .defined), (.defined, .activating), (.activating, .active),
        (.active, .draining), (.active, .defined), (.draining, .defined), (.defined, .empty)] : List (RegionState × RegionState))

/-- The staging pool's laws (03 R45, R52; 04 R68) and the waits' law (03 R50; 05 R97; 04 R70) are kept by every step. -/
def Obligations.EveryStepKeepsThePoolLawful : Prop :=
  (∀ s t : State, s.PoolLawful → step s = .next t → t.PoolLawful) ∧
  (∀ s t : State, s.PoolLawful → s.WaitsLawful → step s = .next t → t.WaitsLawful)

/-- The view store's laws (05 R85, R86, R94) are kept by every step, and so is the agreement of the memory port with the owners of its requests (06
R109; 04 R68, R74, R75; 05 R94, R95): a pending or outstanding commit is the engine's, only the front capture is not QUEUED and a pending or
outstanding capture is its own, and an owner's answers are its transaction's. -/
def Obligations.EveryStepKeepsTheViewsLawful : Prop :=
  (∀ s t : State, s.ViewsLawful → step s = .next t → t.ViewsLawful) ∧
  (∀ s t : State, s.PortsLawful → s.ViewsLawful → s.OwnersLawful → step s = .next t → t.OwnersLawful)

/-- Every step leaves the routers at rest, and the ports and their held writes in order (02 R25, R26; 03 R56); and a held write waits only while a
staging limit stands in its way (03 R56). No step leaves a timer past its limit (07 R122; 03 R57, R59; 05 R100; 06 R114): what a row of its own
has not taken, the tick that ends the microsecond expires (log 7). -/
def Obligations.EveryStepLeavesThePartAtRest : Prop :=
  (∀ s t : State, s.PortsLawful → s.AtRest → step s = .next t → t.PortsLawful ∧ t.AtRest) ∧
  (∀ s t : State, s.PoolLawful → s.PortsLawful → s.HoldsWait → step s = .next t → t.HoldsWait) ∧
  (∀ s t : State, s.RegionsLawful → s.PoolLawful → s.PortsLawful → s.ViewsLawful → s.UpdatesOwned → s.TimersLawful →
    step s = .next t → t.TimersLawful)

/-- A record never has more than one GATHERING staging buffer (03 R48): kept by every step, with the laws it rests on. -/
def Obligations.EveryStepKeepsOneUpdatePerRecord : Prop :=
  ∀ s t : State, s.RegionsLawful → s.PoolLawful → s.PortsLawful → s.UpdatesOwned → s.OneUpdatePerRecord →
    step s = .next t → t.UpdatesOwned ∧ t.OneUpdatePerRecord

/-- Each of these laws holds right after reset. -/
def Obligations.TheLawsHoldAtReset : Prop :=
  State.reset.events.Lawful ∧ State.reset.unusedWatchesBlank ∧ State.reset.RegionsLawful ∧ State.reset.PoolLawful ∧
  State.reset.WaitsLawful ∧ State.reset.ViewsLawful ∧ State.reset.PortsLawful ∧ State.reset.AtRest ∧
  State.reset.UpdatesOwned ∧ State.reset.OneUpdatePerRecord ∧ State.reset.OwnersLawful ∧ State.reset.HoldsWait ∧
  State.reset.TimersLawful

/-- The law of 01 R17: a version advances by one, and only where a commit's transaction ends; and it changes otherwise only to 0, by hard reset, or in a
tick while an ACTIVATE executes, and then it is the version of the entry that the tick fills (01 R8). -/
def Obligations.VersionsCountCommits : Prop :=
  ∀ (c : Instr) (s t : State) (k : Fin 4096), exec c s = .next t → (cell t.versions k).version ≠ (cell s.versions k).version →
    ((cell t.versions k).version = (cell s.versions k).version + 1 ∧ (∃ job, s.engine = .writing job) ∧
      ∃ tr, s.mem.outstanding = some tr ∧ tr.requester = .commit ∧ t.mem.outstanding = none) ∨
    ((cell t.versions k).version = 0 ∧ (c = .hardReset ∨ ((c = .timebaseTick ∨ c = .activateComplete .tick) ∧
      ∃ r n, s.link.state = .executing (.activate r n) ∧ k.val = (s.definition r).versionBase + n)))

/-- The law of 02 R26: a port's responses are only added to; and requests answered and requests waiting keep their number together, but for a request taken, which adds
one, and those a port reset or hard reset drops. The record of a port's responses is the model's, and no reset takes one back (log 14); a request the bundle
cannot carry is not taken (log 10). -/
def Obligations.OneResponsePerRequest : Prop :=
  ∀ (c : Instr) (s t : State) (p : Port), exec c s = .next t →
    (s.port p).responses <+: (t.port p).responses ∧
    (c ≠ .hardReset → c ≠ .portReset p →
      (t.port p).responses.length + (t.port p).queue.length = (s.port p).responses.length + (s.port p).queue.length +
        (match c with | .requestTaken q r => if q = p ∧ s.canTake p = true ∧ r.wellFormed = true then 1 else 0 | _ => 0)) ∧
    (c = .hardReset ∨ c = .portReset p → (t.port p).responses = (s.port p).responses ∧ (t.port p).queue = [])
end

