-- ==== Sys2Proof/Laws/State.lean ====
section
/-! SUPPORT. The small lemmas of the state: tables of fixed size, one value per port, and one lemma per field per setter. -/

namespace Sys2Proof.Machine

/-! ### Tables of fixed size -/

@[simp] theorem cell_put_same {α : Type} {n : Nat} (v : Vector α n) (i : Fin n) (x : α) : cell (put v i x) i = x := by
  simp [cell, put]

theorem cell_put {α : Type} {n : Nat} (v : Vector α n) (i j : Fin n) (x : α) :
    cell (put v i x) j = if j = i then x else cell v j := by
  by_cases h : j = i
  · subst h; simp
  · have hv : i.val ≠ j.val := fun e => h (Fin.ext e.symm)
    simp [cell, put, hv, h]

theorem cell_put_other {α : Type} {n : Nat} (v : Vector α n) {i j : Fin n} (x : α) (h : j ≠ i) :
    cell (put v i x) j = cell v j := by simp [cell_put, h]

@[simp] theorem cell_replicate {α : Type} {n : Nat} (x : α) (i : Fin n) : cell (Vector.replicate n x) i = x := by
  simp [cell]

theorem cellD_eq {α : Type} {n : Nat} (v : Vector α n) {k : Nat} (d : α) (h : k < n) : cellD v k d = cell v ⟨k, h⟩ := by
  simp [cellD, cell, h]

theorem cellD_putD {α : Type} {n : Nat} (v : Vector α n) (k j : Nat) (x d : α) :
    cellD (putD v k x) j d = if j = k ∧ k < n then x else cellD v j d := by
  unfold cellD putD
  by_cases hk : k < n
  · by_cases hj : j < n
    · by_cases e : j = k
      · subst e; simp [hk]
      · have e' : k ≠ j := fun q => e q.symm
        simp [hk, hj, e, e']
    · have e : j ≠ k := fun q => hj (q ▸ hk)
      simp [hk, hj, e]
  · simp [hk]

/-! ### One value per port -/

@[simp] theorem PerPort.get_set_same {α : Type} (x : PerPort α) (p : Port) (a : α) : (x.set p a).get p = a := by
  cases p <;> rfl

theorem PerPort.get_set {α : Type} (x : PerPort α) (p q : Port) (a : α) :
    (x.set p a).get q = if q = p then a else x.get q := by cases p <;> cases q <;> rfl

theorem PerPort.get_set_other {α : Type} (x : PerPort α) {p q : Port} (a : α) (h : q ≠ p) :
    (x.set p a).get q = x.get q := by simp [PerPort.get_set, h]

@[simp] theorem PerPort.set_get_same {α : Type} (x : PerPort α) (p : Port) : x.set p (x.get p) = x := by
  cases p <;> rfl

theorem PerPort.ext_get {α : Type} {x y : PerPort α} (h : ∀ p, x.get p = y.get p) : x = y := by
  cases x; cases y
  simp only [PerPort.mk.injEq]
  exact ⟨h .u0, h .u1, h .u2⟩

/-! ### Fields after each setter -/

section
variable (s : State)

@[simp] theorem State.setRegions_pending (x : Vector Region 16) : (s.setRegions x).pending = s.pending := rfl
@[simp] theorem State.setRegions_hardResetLine (x : Vector Region 16) : (s.setRegions x).hardResetLine = s.hardResetLine := rfl
@[simp] theorem State.setRegions_timebase (x : Vector Region 16) : (s.setRegions x).timebase = s.timebase := rfl
@[simp] theorem State.setRegions_regions (x : Vector Region 16) : (s.setRegions x).regions = x := rfl
@[simp] theorem State.setRegions_versions (x : Vector Region 16) : (s.setRegions x).versions = s.versions := rfl
@[simp] theorem State.setRegions_ports (x : Vector Region 16) : (s.setRegions x).ports = s.ports := rfl
@[simp] theorem State.setRegions_pool (x : Vector Region 16) : (s.setRegions x).pool = s.pool := rfl
@[simp] theorem State.setRegions_engine (x : Vector Region 16) : (s.setRegions x).engine = s.engine := rfl
@[simp] theorem State.setRegions_views (x : Vector Region 16) : (s.setRegions x).views = s.views := rfl
@[simp] theorem State.setRegions_captures (x : Vector Region 16) : (s.setRegions x).captures = s.captures := rfl
@[simp] theorem State.setRegions_mem (x : Vector Region 16) : (s.setRegions x).mem = s.mem := rfl
@[simp] theorem State.setRegions_events (x : Vector Region 16) : (s.setRegions x).events = s.events := rfl
@[simp] theorem State.setRegions_link (x : Vector Region 16) : (s.setRegions x).link = s.link := rfl
@[simp] theorem State.setRegions_choices (x : Vector Region 16) : (s.setRegions x).choices = s.choices := rfl

@[simp] theorem State.setVersions_pending (x : Vector VersionEntry 4096) : (s.setVersions x).pending = s.pending := rfl
@[simp] theorem State.setVersions_hardResetLine (x : Vector VersionEntry 4096) : (s.setVersions x).hardResetLine = s.hardResetLine := rfl
@[simp] theorem State.setVersions_timebase (x : Vector VersionEntry 4096) : (s.setVersions x).timebase = s.timebase := rfl
@[simp] theorem State.setVersions_regions (x : Vector VersionEntry 4096) : (s.setVersions x).regions = s.regions := rfl
@[simp] theorem State.setVersions_versions (x : Vector VersionEntry 4096) : (s.setVersions x).versions = x := rfl
@[simp] theorem State.setVersions_ports (x : Vector VersionEntry 4096) : (s.setVersions x).ports = s.ports := rfl
@[simp] theorem State.setVersions_pool (x : Vector VersionEntry 4096) : (s.setVersions x).pool = s.pool := rfl
@[simp] theorem State.setVersions_engine (x : Vector VersionEntry 4096) : (s.setVersions x).engine = s.engine := rfl
@[simp] theorem State.setVersions_views (x : Vector VersionEntry 4096) : (s.setVersions x).views = s.views := rfl
@[simp] theorem State.setVersions_captures (x : Vector VersionEntry 4096) : (s.setVersions x).captures = s.captures := rfl
@[simp] theorem State.setVersions_mem (x : Vector VersionEntry 4096) : (s.setVersions x).mem = s.mem := rfl
@[simp] theorem State.setVersions_events (x : Vector VersionEntry 4096) : (s.setVersions x).events = s.events := rfl
@[simp] theorem State.setVersions_link (x : Vector VersionEntry 4096) : (s.setVersions x).link = s.link := rfl
@[simp] theorem State.setVersions_choices (x : Vector VersionEntry 4096) : (s.setVersions x).choices = s.choices := rfl

@[simp] theorem State.setPort_pending (p : Port) (x : PortState) : (s.setPort p x).pending = s.pending := rfl
@[simp] theorem State.setPort_hardResetLine (p : Port) (x : PortState) : (s.setPort p x).hardResetLine = s.hardResetLine := rfl
@[simp] theorem State.setPort_timebase (p : Port) (x : PortState) : (s.setPort p x).timebase = s.timebase := rfl
@[simp] theorem State.setPort_regions (p : Port) (x : PortState) : (s.setPort p x).regions = s.regions := rfl
@[simp] theorem State.setPort_versions (p : Port) (x : PortState) : (s.setPort p x).versions = s.versions := rfl
@[simp] theorem State.setPort_ports (p : Port) (x : PortState) : (s.setPort p x).ports = s.ports.set p x := rfl
@[simp] theorem State.setPort_pool (p : Port) (x : PortState) : (s.setPort p x).pool = s.pool := rfl
@[simp] theorem State.setPort_engine (p : Port) (x : PortState) : (s.setPort p x).engine = s.engine := rfl
@[simp] theorem State.setPort_views (p : Port) (x : PortState) : (s.setPort p x).views = s.views := rfl
@[simp] theorem State.setPort_captures (p : Port) (x : PortState) : (s.setPort p x).captures = s.captures := rfl
@[simp] theorem State.setPort_mem (p : Port) (x : PortState) : (s.setPort p x).mem = s.mem := rfl
@[simp] theorem State.setPort_events (p : Port) (x : PortState) : (s.setPort p x).events = s.events := rfl
@[simp] theorem State.setPort_link (p : Port) (x : PortState) : (s.setPort p x).link = s.link := rfl
@[simp] theorem State.setPort_choices (p : Port) (x : PortState) : (s.setPort p x).choices = s.choices := rfl

@[simp] theorem State.setPool_pending (x : Pool) : (s.setPool x).pending = s.pending := rfl
@[simp] theorem State.setPool_hardResetLine (x : Pool) : (s.setPool x).hardResetLine = s.hardResetLine := rfl
@[simp] theorem State.setPool_timebase (x : Pool) : (s.setPool x).timebase = s.timebase := rfl
@[simp] theorem State.setPool_regions (x : Pool) : (s.setPool x).regions = s.regions := rfl
@[simp] theorem State.setPool_versions (x : Pool) : (s.setPool x).versions = s.versions := rfl
@[simp] theorem State.setPool_ports (x : Pool) : (s.setPool x).ports = s.ports := rfl
@[simp] theorem State.setPool_pool (x : Pool) : (s.setPool x).pool = x := rfl
@[simp] theorem State.setPool_engine (x : Pool) : (s.setPool x).engine = s.engine := rfl
@[simp] theorem State.setPool_views (x : Pool) : (s.setPool x).views = s.views := rfl
@[simp] theorem State.setPool_captures (x : Pool) : (s.setPool x).captures = s.captures := rfl
@[simp] theorem State.setPool_mem (x : Pool) : (s.setPool x).mem = s.mem := rfl
@[simp] theorem State.setPool_events (x : Pool) : (s.setPool x).events = s.events := rfl
@[simp] theorem State.setPool_link (x : Pool) : (s.setPool x).link = s.link := rfl
@[simp] theorem State.setPool_choices (x : Pool) : (s.setPool x).choices = s.choices := rfl

@[simp] theorem State.setEngine_pending (x : CommitEngine) : (s.setEngine x).pending = s.pending := rfl
@[simp] theorem State.setEngine_hardResetLine (x : CommitEngine) : (s.setEngine x).hardResetLine = s.hardResetLine := rfl
@[simp] theorem State.setEngine_timebase (x : CommitEngine) : (s.setEngine x).timebase = s.timebase := rfl
@[simp] theorem State.setEngine_regions (x : CommitEngine) : (s.setEngine x).regions = s.regions := rfl
@[simp] theorem State.setEngine_versions (x : CommitEngine) : (s.setEngine x).versions = s.versions := rfl
@[simp] theorem State.setEngine_ports (x : CommitEngine) : (s.setEngine x).ports = s.ports := rfl
@[simp] theorem State.setEngine_pool (x : CommitEngine) : (s.setEngine x).pool = s.pool := rfl
@[simp] theorem State.setEngine_engine (x : CommitEngine) : (s.setEngine x).engine = x := rfl
@[simp] theorem State.setEngine_views (x : CommitEngine) : (s.setEngine x).views = s.views := rfl
@[simp] theorem State.setEngine_captures (x : CommitEngine) : (s.setEngine x).captures = s.captures := rfl
@[simp] theorem State.setEngine_mem (x : CommitEngine) : (s.setEngine x).mem = s.mem := rfl
@[simp] theorem State.setEngine_events (x : CommitEngine) : (s.setEngine x).events = s.events := rfl
@[simp] theorem State.setEngine_link (x : CommitEngine) : (s.setEngine x).link = s.link := rfl
@[simp] theorem State.setEngine_choices (x : CommitEngine) : (s.setEngine x).choices = s.choices := rfl

@[simp] theorem State.setViews_pending (p : Port) (x : PortViews) : (s.setViews p x).pending = s.pending := rfl
@[simp] theorem State.setViews_hardResetLine (p : Port) (x : PortViews) : (s.setViews p x).hardResetLine = s.hardResetLine := rfl
@[simp] theorem State.setViews_timebase (p : Port) (x : PortViews) : (s.setViews p x).timebase = s.timebase := rfl
@[simp] theorem State.setViews_regions (p : Port) (x : PortViews) : (s.setViews p x).regions = s.regions := rfl
@[simp] theorem State.setViews_versions (p : Port) (x : PortViews) : (s.setViews p x).versions = s.versions := rfl
@[simp] theorem State.setViews_ports (p : Port) (x : PortViews) : (s.setViews p x).ports = s.ports := rfl
@[simp] theorem State.setViews_pool (p : Port) (x : PortViews) : (s.setViews p x).pool = s.pool := rfl
@[simp] theorem State.setViews_engine (p : Port) (x : PortViews) : (s.setViews p x).engine = s.engine := rfl
@[simp] theorem State.setViews_views (p : Port) (x : PortViews) : (s.setViews p x).views = s.views.set p x := rfl
@[simp] theorem State.setViews_captures (p : Port) (x : PortViews) : (s.setViews p x).captures = s.captures := rfl
@[simp] theorem State.setViews_mem (p : Port) (x : PortViews) : (s.setViews p x).mem = s.mem := rfl
@[simp] theorem State.setViews_events (p : Port) (x : PortViews) : (s.setViews p x).events = s.events := rfl
@[simp] theorem State.setViews_link (p : Port) (x : PortViews) : (s.setViews p x).link = s.link := rfl
@[simp] theorem State.setViews_choices (p : Port) (x : PortViews) : (s.setViews p x).choices = s.choices := rfl

@[simp] theorem State.setCaptures_pending (x : List Capture) : (s.setCaptures x).pending = s.pending := rfl
@[simp] theorem State.setCaptures_hardResetLine (x : List Capture) : (s.setCaptures x).hardResetLine = s.hardResetLine := rfl
@[simp] theorem State.setCaptures_timebase (x : List Capture) : (s.setCaptures x).timebase = s.timebase := rfl
@[simp] theorem State.setCaptures_regions (x : List Capture) : (s.setCaptures x).regions = s.regions := rfl
@[simp] theorem State.setCaptures_versions (x : List Capture) : (s.setCaptures x).versions = s.versions := rfl
@[simp] theorem State.setCaptures_ports (x : List Capture) : (s.setCaptures x).ports = s.ports := rfl
@[simp] theorem State.setCaptures_pool (x : List Capture) : (s.setCaptures x).pool = s.pool := rfl
@[simp] theorem State.setCaptures_engine (x : List Capture) : (s.setCaptures x).engine = s.engine := rfl
@[simp] theorem State.setCaptures_views (x : List Capture) : (s.setCaptures x).views = s.views := rfl
@[simp] theorem State.setCaptures_captures (x : List Capture) : (s.setCaptures x).captures = x := rfl
@[simp] theorem State.setCaptures_mem (x : List Capture) : (s.setCaptures x).mem = s.mem := rfl
@[simp] theorem State.setCaptures_events (x : List Capture) : (s.setCaptures x).events = s.events := rfl
@[simp] theorem State.setCaptures_link (x : List Capture) : (s.setCaptures x).link = s.link := rfl
@[simp] theorem State.setCaptures_choices (x : List Capture) : (s.setCaptures x).choices = s.choices := rfl

@[simp] theorem State.setMem_pending (x : MemPort) : (s.setMem x).pending = s.pending := rfl
@[simp] theorem State.setMem_hardResetLine (x : MemPort) : (s.setMem x).hardResetLine = s.hardResetLine := rfl
@[simp] theorem State.setMem_timebase (x : MemPort) : (s.setMem x).timebase = s.timebase := rfl
@[simp] theorem State.setMem_regions (x : MemPort) : (s.setMem x).regions = s.regions := rfl
@[simp] theorem State.setMem_versions (x : MemPort) : (s.setMem x).versions = s.versions := rfl
@[simp] theorem State.setMem_ports (x : MemPort) : (s.setMem x).ports = s.ports := rfl
@[simp] theorem State.setMem_pool (x : MemPort) : (s.setMem x).pool = s.pool := rfl
@[simp] theorem State.setMem_engine (x : MemPort) : (s.setMem x).engine = s.engine := rfl
@[simp] theorem State.setMem_views (x : MemPort) : (s.setMem x).views = s.views := rfl
@[simp] theorem State.setMem_captures (x : MemPort) : (s.setMem x).captures = s.captures := rfl
@[simp] theorem State.setMem_mem (x : MemPort) : (s.setMem x).mem = x := rfl
@[simp] theorem State.setMem_events (x : MemPort) : (s.setMem x).events = s.events := rfl
@[simp] theorem State.setMem_link (x : MemPort) : (s.setMem x).link = s.link := rfl
@[simp] theorem State.setMem_choices (x : MemPort) : (s.setMem x).choices = s.choices := rfl

@[simp] theorem State.setEvents_pending (x : EventUnit) : (s.setEvents x).pending = s.pending := rfl
@[simp] theorem State.setEvents_hardResetLine (x : EventUnit) : (s.setEvents x).hardResetLine = s.hardResetLine := rfl
@[simp] theorem State.setEvents_timebase (x : EventUnit) : (s.setEvents x).timebase = s.timebase := rfl
@[simp] theorem State.setEvents_regions (x : EventUnit) : (s.setEvents x).regions = s.regions := rfl
@[simp] theorem State.setEvents_versions (x : EventUnit) : (s.setEvents x).versions = s.versions := rfl
@[simp] theorem State.setEvents_ports (x : EventUnit) : (s.setEvents x).ports = s.ports := rfl
@[simp] theorem State.setEvents_pool (x : EventUnit) : (s.setEvents x).pool = s.pool := rfl
@[simp] theorem State.setEvents_engine (x : EventUnit) : (s.setEvents x).engine = s.engine := rfl
@[simp] theorem State.setEvents_views (x : EventUnit) : (s.setEvents x).views = s.views := rfl
@[simp] theorem State.setEvents_captures (x : EventUnit) : (s.setEvents x).captures = s.captures := rfl
@[simp] theorem State.setEvents_mem (x : EventUnit) : (s.setEvents x).mem = s.mem := rfl
@[simp] theorem State.setEvents_events (x : EventUnit) : (s.setEvents x).events = x := rfl
@[simp] theorem State.setEvents_link (x : EventUnit) : (s.setEvents x).link = s.link := rfl
@[simp] theorem State.setEvents_choices (x : EventUnit) : (s.setEvents x).choices = s.choices := rfl

@[simp] theorem State.setLink_pending (x : Link) : (s.setLink x).pending = s.pending := rfl
@[simp] theorem State.setLink_hardResetLine (x : Link) : (s.setLink x).hardResetLine = s.hardResetLine := rfl
@[simp] theorem State.setLink_timebase (x : Link) : (s.setLink x).timebase = s.timebase := rfl
@[simp] theorem State.setLink_regions (x : Link) : (s.setLink x).regions = s.regions := rfl
@[simp] theorem State.setLink_versions (x : Link) : (s.setLink x).versions = s.versions := rfl
@[simp] theorem State.setLink_ports (x : Link) : (s.setLink x).ports = s.ports := rfl
@[simp] theorem State.setLink_pool (x : Link) : (s.setLink x).pool = s.pool := rfl
@[simp] theorem State.setLink_engine (x : Link) : (s.setLink x).engine = s.engine := rfl
@[simp] theorem State.setLink_views (x : Link) : (s.setLink x).views = s.views := rfl
@[simp] theorem State.setLink_captures (x : Link) : (s.setLink x).captures = s.captures := rfl
@[simp] theorem State.setLink_mem (x : Link) : (s.setLink x).mem = s.mem := rfl
@[simp] theorem State.setLink_events (x : Link) : (s.setLink x).events = s.events := rfl
@[simp] theorem State.setLink_link (x : Link) : (s.setLink x).link = x := rfl
@[simp] theorem State.setLink_choices (x : Link) : (s.setLink x).choices = s.choices := rfl

@[simp] theorem State.setTimebase_pending (x : Word) : (s.setTimebase x).pending = s.pending := rfl
@[simp] theorem State.setTimebase_hardResetLine (x : Word) : (s.setTimebase x).hardResetLine = s.hardResetLine := rfl
@[simp] theorem State.setTimebase_timebase (x : Word) : (s.setTimebase x).timebase = x := rfl
@[simp] theorem State.setTimebase_regions (x : Word) : (s.setTimebase x).regions = s.regions := rfl
@[simp] theorem State.setTimebase_versions (x : Word) : (s.setTimebase x).versions = s.versions := rfl
@[simp] theorem State.setTimebase_ports (x : Word) : (s.setTimebase x).ports = s.ports := rfl
@[simp] theorem State.setTimebase_pool (x : Word) : (s.setTimebase x).pool = s.pool := rfl
@[simp] theorem State.setTimebase_engine (x : Word) : (s.setTimebase x).engine = s.engine := rfl
@[simp] theorem State.setTimebase_views (x : Word) : (s.setTimebase x).views = s.views := rfl
@[simp] theorem State.setTimebase_captures (x : Word) : (s.setTimebase x).captures = s.captures := rfl
@[simp] theorem State.setTimebase_mem (x : Word) : (s.setTimebase x).mem = s.mem := rfl
@[simp] theorem State.setTimebase_events (x : Word) : (s.setTimebase x).events = s.events := rfl
@[simp] theorem State.setTimebase_link (x : Word) : (s.setTimebase x).link = s.link := rfl
@[simp] theorem State.setTimebase_choices (x : Word) : (s.setTimebase x).choices = s.choices := rfl

@[simp] theorem State.setHardResetLine_pending (x : Bool) : (s.setHardResetLine x).pending = s.pending := rfl
@[simp] theorem State.setHardResetLine_hardResetLine (x : Bool) : (s.setHardResetLine x).hardResetLine = x := rfl
@[simp] theorem State.setHardResetLine_timebase (x : Bool) : (s.setHardResetLine x).timebase = s.timebase := rfl
@[simp] theorem State.setHardResetLine_regions (x : Bool) : (s.setHardResetLine x).regions = s.regions := rfl
@[simp] theorem State.setHardResetLine_versions (x : Bool) : (s.setHardResetLine x).versions = s.versions := rfl
@[simp] theorem State.setHardResetLine_ports (x : Bool) : (s.setHardResetLine x).ports = s.ports := rfl
@[simp] theorem State.setHardResetLine_pool (x : Bool) : (s.setHardResetLine x).pool = s.pool := rfl
@[simp] theorem State.setHardResetLine_engine (x : Bool) : (s.setHardResetLine x).engine = s.engine := rfl
@[simp] theorem State.setHardResetLine_views (x : Bool) : (s.setHardResetLine x).views = s.views := rfl
@[simp] theorem State.setHardResetLine_captures (x : Bool) : (s.setHardResetLine x).captures = s.captures := rfl
@[simp] theorem State.setHardResetLine_mem (x : Bool) : (s.setHardResetLine x).mem = s.mem := rfl
@[simp] theorem State.setHardResetLine_events (x : Bool) : (s.setHardResetLine x).events = s.events := rfl
@[simp] theorem State.setHardResetLine_link (x : Bool) : (s.setHardResetLine x).link = s.link := rfl
@[simp] theorem State.setHardResetLine_choices (x : Bool) : (s.setHardResetLine x).choices = s.choices := rfl

@[simp] theorem State.setChoices_pending (x : Nat) : (s.setChoices x).pending = s.pending := rfl
@[simp] theorem State.setChoices_hardResetLine (x : Nat) : (s.setChoices x).hardResetLine = s.hardResetLine := rfl
@[simp] theorem State.setChoices_timebase (x : Nat) : (s.setChoices x).timebase = s.timebase := rfl
@[simp] theorem State.setChoices_regions (x : Nat) : (s.setChoices x).regions = s.regions := rfl
@[simp] theorem State.setChoices_versions (x : Nat) : (s.setChoices x).versions = s.versions := rfl
@[simp] theorem State.setChoices_ports (x : Nat) : (s.setChoices x).ports = s.ports := rfl
@[simp] theorem State.setChoices_pool (x : Nat) : (s.setChoices x).pool = s.pool := rfl
@[simp] theorem State.setChoices_engine (x : Nat) : (s.setChoices x).engine = s.engine := rfl
@[simp] theorem State.setChoices_views (x : Nat) : (s.setChoices x).views = s.views := rfl
@[simp] theorem State.setChoices_captures (x : Nat) : (s.setChoices x).captures = s.captures := rfl
@[simp] theorem State.setChoices_mem (x : Nat) : (s.setChoices x).mem = s.mem := rfl
@[simp] theorem State.setChoices_events (x : Nat) : (s.setChoices x).events = s.events := rfl
@[simp] theorem State.setChoices_link (x : Nat) : (s.setChoices x).link = s.link := rfl
@[simp] theorem State.setChoices_choices (x : Nat) : (s.setChoices x).choices = x := rfl

end

end Sys2Proof.Machine
end

