-- ==== Sys2Proof/Laws/Events.lean ====
section
/-! SUPPORT. What posting an event can do (07 R130, R134), said once. -/

namespace Sys2Proof.Machine

/-- Re-evaluation writes the line alone. -/
@[simp] theorem EventUnit.reevaluate_queue (e : EventUnit) : e.reevaluate.queue = e.queue := rfl
@[simp] theorem EventUnit.reevaluate_lost (e : EventUnit) : e.reevaluate.lost = e.lost := rfl
@[simp] theorem EventUnit.reevaluate_sequence (e : EventUnit) : e.reevaluate.sequence = e.sequence := rfl
@[simp] theorem EventUnit.reevaluate_watches (e : EventUnit) : e.reevaluate.watches = e.watches := rfl
@[simp] theorem EventUnit.reevaluate_queueMask (e : EventUnit) : e.reevaluate.queueMask = e.queueMask := rfl
@[simp] theorem EventUnit.reevaluate_attentionMask (e : EventUnit) : e.reevaluate.attentionMask = e.attentionMask := rfl

/-- The line reads the queue, the lost count and the attention mask, not itself. -/
@[simp] theorem attentionOf_reevaluate (e : EventUnit) : attentionOf e.reevaluate = attentionOf e := rfl

/-- After re-evaluation the unit is lawful if its bounds hold. -/
theorem EventUnit.reevaluate_lawful (e : EventUnit) (hq : e.queue.length ≤ 32) (hl : e.lost ≤ 255) : e.reevaluate.Lawful :=
  ⟨hq, hl, rfl⟩

section
variable (e : EventUnit) (now : Word) (body : EventBody) (r : RegionId) (p : Port) (k : Nat) (v : Half)

/-- Everything a posting can do: the event is dropped, appended, or lost and counted (07 R130). -/
theorem EventUnit.post_cases :
    (e.queueMask.getLsbD (kindBit body) = false ∧ e.post now body r p k v = e) ∨
    (e.queueMask.getLsbD (kindBit body) = true ∧ e.queue.length < 32 ∧ e.post now body r p k v = EventUnit.reevaluate { e with
      queue := e.queue ++ [⟨e.sequence, body, r, p, k, v, now⟩], sequence := e.sequence + 1 }) ∨
    (e.queueMask.getLsbD (kindBit body) = true ∧ 32 ≤ e.queue.length ∧ e.post now body r p k v = EventUnit.reevaluate { e with
      lost := if e.lost < 255 then e.lost + 1 else 255, sequence := e.sequence + 1 }) := by
  unfold EventUnit.post
  cases hm : e.queueMask.getLsbD (kindBit body)
  · exact .inl ⟨rfl, by simp⟩
  · by_cases hq : e.queue.length < 32
    · exact .inr (.inl ⟨rfl, hq, by simp [hq]⟩)
    · exact .inr (.inr ⟨rfl, by omega, by simp [hq]⟩)

@[simp] theorem EventUnit.post_watches : (e.post now body r p k v).watches = e.watches := by
  obtain ⟨-, h⟩ | ⟨-, -, h⟩ | ⟨-, -, h⟩ := EventUnit.post_cases e now body r p k v <;> rw [h] <;> rfl

@[simp] theorem EventUnit.post_queueMask : (e.post now body r p k v).queueMask = e.queueMask := by
  obtain ⟨-, h⟩ | ⟨-, -, h⟩ | ⟨-, -, h⟩ := EventUnit.post_cases e now body r p k v <;> rw [h] <;> rfl

@[simp] theorem EventUnit.post_attentionMask : (e.post now body r p k v).attentionMask = e.attentionMask := by
  obtain ⟨-, h⟩ | ⟨-, -, h⟩ | ⟨-, -, h⟩ := EventUnit.post_cases e now body r p k v <;> rw [h] <;> rfl

/-- The queue only grows, at its tail. -/
theorem EventUnit.post_queue_prefix : e.queue <+: (e.post now body r p k v).queue := by
  obtain ⟨-, h⟩ | ⟨-, -, h⟩ | ⟨-, -, h⟩ := EventUnit.post_cases e now body r p k v
  · simp [h]
  · simp [h]
  · simp [h]

/-- Posting keeps the event unit's law. -/
theorem EventUnit.post_lawful (h : e.Lawful) : (e.post now body r p k v).Lawful := by
  obtain ⟨-, e'⟩ | ⟨-, hq, e'⟩ | ⟨-, -, e'⟩ := EventUnit.post_cases e now body r p k v <;> rw [e']
  · exact h
  · exact EventUnit.reevaluate_lawful _ (by simp; omega) h.lost_le
  · refine EventUnit.reevaluate_lawful _ h.queue_le ?_
    have := h.lost_le
    show (if e.lost < 255 then e.lost + 1 else 255) ≤ 255
    split <;> omega

end

/-! ### The state after a posting: the event unit alone changes -/

section
variable (s : State) (body : EventBody) (r : RegionId) (p : Port) (k : Nat) (v : Half)

theorem State.post_eq : s.post body r p k v = s.setEvents (s.events.post s.timebase body r p k v) := rfl

@[simp] theorem State.post_pending : (s.post body r p k v).pending = s.pending := rfl
@[simp] theorem State.post_hardResetLine : (s.post body r p k v).hardResetLine = s.hardResetLine := rfl
@[simp] theorem State.post_timebase : (s.post body r p k v).timebase = s.timebase := rfl
@[simp] theorem State.post_regions : (s.post body r p k v).regions = s.regions := rfl
@[simp] theorem State.post_versions : (s.post body r p k v).versions = s.versions := rfl
@[simp] theorem State.post_ports : (s.post body r p k v).ports = s.ports := rfl
@[simp] theorem State.post_pool : (s.post body r p k v).pool = s.pool := rfl
@[simp] theorem State.post_engine : (s.post body r p k v).engine = s.engine := rfl
@[simp] theorem State.post_views : (s.post body r p k v).views = s.views := rfl
@[simp] theorem State.post_captures : (s.post body r p k v).captures = s.captures := rfl
@[simp] theorem State.post_mem : (s.post body r p k v).mem = s.mem := rfl
@[simp] theorem State.post_link : (s.post body r p k v).link = s.link := rfl
@[simp] theorem State.post_choices : (s.post body r p k v).choices = s.choices := rfl

end

end Sys2Proof.Machine
end

