-- ==== Sys2Proof/Laws/Router.lean ====
section
/-! SUPPORT. What the routers' work leaves alone, said once: each shared operation of the ports, the staging pool and the view
store keeps `State.OutsideRouters`, and so does all the routing of a step (02 R27 to R37). -/

namespace Sys2Proof.Machine

namespace State.OutsideRouters

protected theorem refl (s : State) : s.OutsideRouters s :=
  ⟨rfl, rfl, rfl, rfl, rfl, rfl, rfl, rfl, rfl, rfl, rfl, rfl, rfl, rfl, fun _ => rfl, fun _ => rfl⟩

protected theorem trans {s t u : State} (h : s.OutsideRouters t) (k : t.OutsideRouters u) : s.OutsideRouters u :=
  ⟨k.1.trans h.1, k.2.trans h.2, k.3.trans h.3, k.4.trans h.4, k.5.trans h.5, k.6.trans h.6, k.7.trans h.7, k.8.trans h.8,
    k.9.trans h.9, k.10.trans h.10, k.11.trans h.11, k.12.trans h.12, k.13.trans h.13, k.14.trans h.14,
    fun p => (k.15 p).trans (h.15 p), fun i => (k.16 i).trans (h.16 i)⟩

/-- A fold of steps that each keep it keeps it. -/
theorem foldl {α : Type} {f : State → α → State} (hf : ∀ (s : State) (x : α), s.OutsideRouters (f s x)) (l : List α) (s : State) :
    s.OutsideRouters (l.foldl f s) := by
  induction l generalizing s with
  | nil => exact .refl s
  | cons x l ih => exact (hf s x).trans (ih _)

end State.OutsideRouters

section
variable (s : State)

/-! ### The writers -/

theorem State.setPool_outside (x : Pool) : s.OutsideRouters (s.setPool x) :=
  ⟨rfl, rfl, rfl, rfl, rfl, rfl, rfl, rfl, rfl, rfl, rfl, rfl, rfl, rfl, fun _ => rfl, fun _ => rfl⟩

theorem State.setViews_outside (p : Port) (x : PortViews) : s.OutsideRouters (s.setViews p x) :=
  ⟨rfl, rfl, rfl, rfl, rfl, rfl, rfl, rfl, rfl, rfl, rfl, rfl, rfl, rfl, fun _ => rfl, fun _ => rfl⟩

theorem State.setCaptures_outside (x : List Capture) : s.OutsideRouters (s.setCaptures x) :=
  ⟨rfl, rfl, rfl, rfl, rfl, rfl, rfl, rfl, rfl, rfl, rfl, rfl, rfl, rfl, fun _ => rfl, fun _ => rfl⟩

theorem State.setChoices_outside (n : Nat) : s.OutsideRouters (s.setChoices n) :=
  ⟨rfl, rfl, rfl, rfl, rfl, rfl, rfl, rfl, rfl, rfl, rfl, rfl, rfl, rfl, fun _ => rfl, fun _ => rfl⟩

theorem State.setPlainRequest_outside (p : Port) (q : Option MemRequest) : s.OutsideRouters (s.setPlainRequest p q) :=
  ⟨rfl, rfl, rfl, rfl, rfl, rfl, rfl, rfl, rfl, rfl, rfl, rfl, rfl, rfl, fun _ => rfl, fun _ => rfl⟩

theorem State.setCaptureRequest_outside (q : Option MemRequest) : s.OutsideRouters (s.setCaptureRequest q) :=
  ⟨rfl, rfl, rfl, rfl, rfl, rfl, rfl, rfl, rfl, rfl, rfl, rfl, rfl, rfl, fun _ => rfl, fun _ => rfl⟩

theorem State.setPort_outside (p : Port) (x : PortState) (h : x.resetLine = (s.port p).resetLine) :
    s.OutsideRouters (s.setPort p x) := by
  refine ⟨rfl, rfl, rfl, rfl, rfl, rfl, rfl, rfl, rfl, rfl, rfl, rfl, rfl, rfl, fun q => ?_, fun _ => rfl⟩
  show ((s.ports.set p x).get q).resetLine = (s.ports.get q).resetLine
  rw [PerPort.get_set]
  split
  · next e => rw [e]; exact h
  · rfl

theorem State.setService_outside (p : Port) (x : Service) : s.OutsideRouters (s.setService p x) := s.setPort_outside p _ rfl

theorem State.post_outside (body : EventBody) (r : RegionId) (p : Port) (k : Nat) (v : Half) :
    s.OutsideRouters (s.post body r p k v) :=
  ⟨rfl, rfl, rfl, rfl, rfl, rfl, rfl, rfl, rfl, rfl, rfl, EventUnit.post_watches .., EventUnit.post_queueMask ..,
    EventUnit.post_attentionMask .., fun _ => rfl, fun _ => rfl⟩

/-- A mark written beside an entry's own version leaves every version as it was. -/
theorem State.setMark_outside (r : RegionId) (k : Nat) (m : Mark) :
    s.OutsideRouters (s.setEntry r k { s.entry r k with torn := m }) := by
  refine ⟨rfl, rfl, rfl, rfl, rfl, rfl, rfl, rfl, rfl, rfl, rfl, rfl, rfl, rfl, fun _ => rfl, fun i => ?_⟩
  have h := cellD_putD s.versions ((s.definition r).versionBase + k) i.val { s.entry r k with torn := m } VersionEntry.initial
  rw [cellD_eq _ _ i.isLt, cellD_eq _ _ i.isLt] at h
  show (cell (putD s.versions _ _) i).version = _
  rw [show (⟨i.val, i.isLt⟩ : Fin 4096) = i from rfl] at h
  rw [h]
  split
  · next e =>
    have hi : s.entry r k = cell s.versions i := by
      unfold State.entry
      rw [← e.1, cellD_eq _ _ i.isLt]
    rw [hi]
  · rfl

/-! ### Ports and router -/

theorem State.finishPiece_outside (p : Port) (n : Nat) (st : Status) (ws : List Word) :
    s.OutsideRouters (s.finishPiece p n st ws) := s.setService_outside p _

theorem State.awaitPiece_outside (p : Port) (n : Nat) (x : Option Spot) (w : Wait) :
    s.OutsideRouters (s.awaitPiece p n x w) := s.setService_outside p _

theorem State.giveBack_outside (p : Port) : s.OutsideRouters (s.giveBack p) := s.setService_outside p _

theorem State.respond_outside (p : Port) (r : Request) (rest : List Request) : s.OutsideRouters (s.respond p r rest) :=
  s.setPort_outside p _ rfl

theorem State.plainPiece_outside (p : Port) (r : Request) (k n : Nat) (x : Option Spot) :
    s.OutsideRouters (s.plainPiece p r k n x) := (s.setPlainRequest_outside p _).trans (State.awaitPiece_outside _ ..)

theorem State.foreignWrite_outside (p : Port) (x : Spot) (n : Nat) : s.OutsideRouters (s.foreignWrite p x n) :=
  (s.post_outside ..).trans (State.finishPiece_outside _ ..)

/-! ### Staging pool -/

theorem State.setBuffer_outside (b : BufId) (x : Buffer) : s.OutsideRouters (s.setBuffer b x) := s.setPool_outside _

theorem State.closeBuffer_outside (b : BufId) : s.OutsideRouters (s.closeBuffer b) :=
  (s.setPool_outside _).trans (State.setCaptures_outside _ _)

theorem State.makePreTorn_outside (r : RegionId) (k : Nat) (x : Option BufId) : s.OutsideRouters (s.makePreTorn r k x) := by
  refine State.OutsideRouters.foldl (fun s b => ?_) _ s
  dsimp only
  split
  · exact s.setBuffer_outside ..
  · exact .refl s

theorem State.stageIn_outside (b : BufId) (x : Spot) (ws : List WriteWord) : s.OutsideRouters (s.stageIn b x ws) := by
  unfold State.stageIn
  dsimp only
  split
  · exact (s.setBuffer_outside ..).trans (State.closeBuffer_outside _ _)
  · exact s.setBuffer_outside ..

theorem State.openUpdate_outside (p : Port) (x : Spot) (ws : List WriteWord) : s.OutsideRouters (s.openUpdate p x ws) := by
  unfold State.openUpdate
  split
  · exact .refl s
  · exact (s.setPool_outside _).trans (State.stageIn_outside _ ..)

theorem State.examineHold_outside (h : HeldWrite) : s.OutsideRouters (s.examineHold h) := by
  unfold State.examineHold
  split
  · exact ((s.setPool_outside _).trans (State.openUpdate_outside _ ..)).trans (State.finishPiece_outside _ ..)
  · exact .refl s

theorem State.examineHolds_outside : s.OutsideRouters s.examineHolds := State.OutsideRouters.foldl (fun s h => s.examineHold_outside h) _ s

theorem State.examineIf_outside (left : Bool) : s.OutsideRouters (s.examineIf left) := by
  unfold State.examineIf
  split
  · exact s.examineHolds_outside
  · exact .refl s

theorem State.tearThrough_outside (p : Port) (x : Spot) : s.OutsideRouters (s.tearThrough p x) :=
  ((s.setMark_outside ..).trans (State.makePreTorn_outside _ ..)).trans (State.post_outside _ ..)

theorem State.earlyClose_outside (p : Port) : s.OutsideRouters (s.earlyClose p) := by
  unfold State.earlyClose
  split
  · exact .refl s
  · exact s.closeBuffer_outside _

theorem State.exhausted_outside (p : Port) (x : Spot) (a : Word) (ws : List WriteWord) :
    s.OutsideRouters (s.exhausted p x a ws) := by
  unfold State.exhausted
  dsimp only
  split
  · exact (((s.post_outside ..).trans (State.tearThrough_outside _ ..)).trans (State.setPlainRequest_outside _ ..)).trans
      (State.awaitPiece_outside _ ..)
  · exact (s.post_outside ..).trans (State.finishPiece_outside _ ..)
  · exact ((((s.post_outside ..).trans (State.earlyClose_outside _ _)).trans (State.setPool_outside _ _)).trans
      (State.awaitPiece_outside _ ..)).trans (State.examineHolds_outside _)

theorem State.stagePiece_outside (p : Port) (x : Spot) (a : Word) (ws : List WriteWord) :
    s.OutsideRouters (s.stagePiece p x a ws) := by
  unfold State.stagePiece
  dsimp only
  split
  · exact s.finishPiece_outside ..
  · split
    · exact ((s.stageIn_outside ..).trans (State.finishPiece_outside _ ..)).trans (State.examineIf_outside _ _)
    · split
      · exact ((s.openUpdate_outside ..).trans (State.finishPiece_outside _ ..)).trans (State.examineIf_outside _ _)
      · exact s.exhausted_outside ..

/-! ### Views -/

theorem State.lowerWaits_outside (l : List BufId) : s.OutsideRouters (s.lowerWaits l) :=
  State.OutsideRouters.foldl (fun s _ => s.setBuffer_outside ..) _ s

theorem State.endCapture_outside (c : Capture) : s.OutsideRouters (s.endCapture c) :=
  (s.setCaptures_outside _).trans (State.lowerWaits_outside _ _)

theorem State.releaseView_outside (p : Port) (v : ViewIx) : s.OutsideRouters (s.releaseView p v) := by
  unfold State.releaseView
  dsimp only
  split
  · exact s.setViews_outside ..
  · split
    · exact (s.setViews_outside ..).trans (State.endCapture_outside _ _)
    · exact ((s.setViews_outside ..).trans (State.setCaptureRequest_outside _ _)).trans (State.endCapture_outside _ _)
    · exact (s.setViews_outside ..).trans (State.setCaptures_outside _ _)

theorem State.openView_outside (p : Port) (v : ViewIx) (r : RegionId) (k : Nat) : s.OutsideRouters (s.openView p v r k) := by
  unfold State.openView
  dsimp only
  split
  · exact s.setViews_outside ..
  · exact (s.setViews_outside ..).trans (State.setCaptures_outside _ _)

theorem State.answerFromView_outside (p : Port) (v : ViewIx) (x : Spot) (n : Nat) :
    s.OutsideRouters (s.answerFromView p v x n) := by
  unfold State.answerFromView
  dsimp only
  have h : s.OutsideRouters ((s.finishPiece p n (statusOfMark (s.view p v).torn)
      (viewWords (s.definition x.region) (s.view p v) x.offset n)).setUseList p ((s.views.get p).useList.erase v ++ [v])) :=
    (s.finishPiece_outside ..).trans (State.setViews_outside _ ..)
  split
  · exact h.trans (State.releaseView_outside _ _ _)
  · exact h

theorem State.serveFromView_outside (p : Port) (v : ViewIx) (x : Spot) (n : Nat) : s.OutsideRouters (s.serveFromView p v x n) := by
  unfold State.serveFromView
  split
  · exact s.answerFromView_outside ..
  · exact s.awaitPiece_outside ..

theorem State.viewPiece_outside (p : Port) (x : Spot) (n : Nat) : s.OutsideRouters (s.viewPiece p x n) := by
  unfold State.viewPiece
  split
  · exact s.serveFromView_outside ..
  · split
    · exact s.awaitPiece_outside ..
    · exact ((s.releaseView_outside _ _).trans (State.openView_outside _ ..)).trans (State.serveFromView_outside _ ..)

theorem State.readOwn_outside (p : Port) (x : Spot) (n : Nat) (a : Word) : s.OutsideRouters (s.readOwn p x n a) := by
  unfold State.readOwn
  dsimp only
  split
  · exact s.finishPiece_outside ..
  · exact (s.setPlainRequest_outside ..).trans (State.awaitPiece_outside _ ..)

/-! ### A move, and all the moves of a step -/

theorem State.handPiece_outside (p : Port) (r : Request) (k n : Nat) (x : Option Spot) : s.OutsideRouters (s.handPiece p r k n x) := by
  unfold State.handPiece
  split
  · exact s.plainPiece_outside ..
  · dsimp only
    split
    · split
      · exact s.readOwn_outside ..
      · exact s.stagePiece_outside ..
    · split
      · split
        · exact s.viewPiece_outside ..
        · exact s.plainPiece_outside ..
      · exact s.foreignWrite_outside ..

theorem State.advance_outside (p : Port) : s.OutsideRouters (s.advance p) := by
  unfold State.advance
  split
  · exact .refl s
  · dsimp only
    split
    · exact s.respond_outside ..
    · split
      · exact s.finishPiece_outside ..
      · exact s.handPiece_outside ..

theorem runRouters_outside (n : Nat) : s.OutsideRouters (runRouters n s) := by
  induction n generalizing s with
  | zero => exact .refl s
  | succ n ih =>
    unfold runRouters
    split
    · exact .refl s
    · exact (s.advance_outside _).trans (ih _)
    · exact ((s.setChoices_outside _).trans (State.advance_outside _ _)).trans (ih _)

/-- All the routing of a step leaves what lies outside the routers alone. -/
theorem State.route_outside : s.OutsideRouters s.route := runRouters_outside s _

/-- With no router able to move, routing does nothing. -/
theorem State.route_rest (h : s.movable = []) : s.route = s := by
  unfold State.route
  cases s.workLeft with
  | zero => rfl
  | succ n => unfold runRouters; rw [h]

/-- At rest, what follows a step's own effect is nothing. -/
theorem State.AtRest.settle {s : State} (h : s.AtRest) : s.settle = s := by
  unfold State.settle
  rw [s.route_rest h.routers, h.link]

end

end Sys2Proof.Machine
end

