-- ==== Sys2Proof/Laws/Pool.lean ====
section
/-! SUPPORT. What each shared operation of the staging pool, the ports and the capture engine writes, field by field, said once
(02 R28; 03 R47, R49, R50, R60; 05 R97, R103). -/

namespace Sys2Proof.Machine

section
variable (s : State)

/-! ### One buffer, one view, one port -/

@[simp] theorem State.setBuffer_buffer_same (b : BufId) (x : Buffer) : (s.setBuffer b x).buffer b = x := cell_put_same ..

theorem State.setBuffer_buffer (b c : BufId) (x : Buffer) : (s.setBuffer b x).buffer c = if c = b then x else s.buffer c :=
  cell_put ..

@[simp] theorem State.setView_view_same (p : Port) (v : ViewIx) (x : View) : (s.setView p v x).view p v = x := by
  simp [State.setView, State.view]

@[simp] theorem State.setPort_port_same (p : Port) (x : PortState) : (s.setPort p x).port p = x := PerPort.get_set_same ..

theorem State.setPort_port (p q : Port) (x : PortState) : (s.setPort p x).port q = if q = p then x else s.port q :=
  PerPort.get_set ..

@[simp] theorem State.setRegion_region_same (r : RegionId) (x : Region) : (s.setRegion r x).region r = x := cell_put_same ..

theorem State.setRegion_region (r q : RegionId) (x : Region) : (s.setRegion r x).region q = if q = r then x else s.region q :=
  cell_put ..

/-! ### Closing and freeing -/

/-- The closed buffer keeps its bytes and takes its wait count (03 R49, R50). -/
theorem State.closeBuffer_buffer_same (b : BufId) : (s.closeBuffer b).buffer b = { s.buffer b with
    state := .closed
    waitCount := (s.captures.filter fun c => c.ofRecord (s.buffer b).region (s.buffer b).record).length } := cell_put_same ..

theorem State.closeBuffer_buffer_other (b c : BufId) (h : c ≠ b) : (s.closeBuffer b).buffer c = s.buffer c :=
  cell_put_other _ _ h

@[simp] theorem State.closeBuffer_closeOrder (b : BufId) : (s.closeBuffer b).pool.closeOrder = s.pool.closeOrder ++ [b] := rfl

@[simp] theorem State.closeBuffer_gathering (b : BufId) : (s.closeBuffer b).pool.gathering =
    s.pool.gathering.set (s.buffer b).writer ((s.pool.gathering.get (s.buffer b).writer).erase b) := rfl

@[simp] theorem State.closeBuffer_holds (b : BufId) : (s.closeBuffer b).pool.holds = s.pool.holds := rfl

/-- Each in-flight capture of the record takes the closed buffer into its hold set, and no other capture changes (03 R50). -/
@[simp] theorem State.closeBuffer_captures (b : BufId) : (s.closeBuffer b).captures = s.captures.map fun c =>
    if c.ofRecord (s.buffer b).region (s.buffer b).record then { c with holdSet := c.holdSet ++ [b] } else c := rfl

theorem State.freeGathering_buffer_same (b : BufId) : (s.freeGathering b).buffer b = { s.buffer b with state := .free } :=
  cell_put_same ..

theorem State.freeGathering_buffer_other (b c : BufId) (h : c ≠ b) : (s.freeGathering b).buffer c = s.buffer c :=
  cell_put_other _ _ h

@[simp] theorem State.freeGathering_closeOrder (b : BufId) : (s.freeGathering b).pool.closeOrder = s.pool.closeOrder := rfl

@[simp] theorem State.freeGathering_holds (b : BufId) : (s.freeGathering b).pool.holds = s.pool.holds := rfl

theorem State.freeGathering_outside (b : BufId) : s.OutsideRouters (s.freeGathering b) := s.setPool_outside _

theorem State.abandonBuffer_outside (c : AbandonCause) (b : BufId) : s.OutsideRouters (s.abandonBuffer c b) :=
  (s.freeGathering_outside b).trans (State.post_outside _ ..)

@[simp] theorem State.abandonBuffer_pool (c : AbandonCause) (b : BufId) : (s.abandonBuffer c b).pool = (s.freeGathering b).pool := rfl

theorem State.refuseHold_outside (c : RefusedCause) (h : HeldWrite) : s.OutsideRouters (s.refuseHold c h) :=
  ((s.setPool_outside _).trans (State.post_outside _ ..)).trans (State.finishPiece_outside _ ..)

@[simp] theorem State.refuseHold_holds (c : RefusedCause) (h : HeldWrite) : (s.refuseHold c h).pool.holds = s.pool.holds.erase h := rfl

@[simp] theorem State.refuseHold_buffers (c : RefusedCause) (h : HeldWrite) : (s.refuseHold c h).pool.buffers = s.pool.buffers := rfl

/-- With no held write, examining the held writes does nothing. -/
theorem State.examineHolds_none (h : s.pool.holds = []) : s.examineHolds = s := by
  unfold State.examineHolds; rw [h]; rfl

/-! ### Staging -/

/-- Staging writes the image and the mask alone (03 R47). -/
theorem stageWords_fields (x : Buffer) (k : Nat) (ws : List WriteWord) : (stageWords x k ws).state = x.state ∧
    (stageWords x k ws).region = x.region ∧ (stageWords x k ws).record = x.record ∧ (stageWords x k ws).writer = x.writer ∧
    (stageWords x k ws).openingTime = x.openingTime ∧ (stageWords x k ws).waitCount = x.waitCount ∧
    (stageWords x k ws).preTorn = x.preTorn := by
  induction ws generalizing x k with
  | nil => exact ⟨rfl, rfl, rfl, rfl, rfl, rfl, rfl⟩
  | cons w ws ih => exact ih (stageWord x k w) (k + 1)

/-- Setting the version word aside keeps the number of words (03 R46). -/
@[simp] theorem setAside_length (v : Option Nat) (k : Nat) (ws : List WriteWord) : (setAside v k ws).length = ws.length := by
  induction ws generalizing k with
  | nil => rfl
  | cons w ws ih => simp [setAside, ih]

/-! ### The request in service -/

/-- Finishing a piece leaves the queue, the line and the responses (02 R28). -/
theorem State.finishPiece_port (p : Port) (n : Nat) (st : Status) (ws : List Word) :
    ((s.finishPiece p n st ws).port p).queue = (s.port p).queue ∧
    ((s.finishPiece p n st ws).port p).responses = (s.port p).responses ∧
    ((s.finishPiece p n st ws).port p).service.piece = none ∧
    ((s.finishPiece p n st ws).port p).service.outcomes = (s.port p).service.outcomes ++ [st] := by
  simp [State.finishPiece, State.setService]

/-- Responding takes the head off the queue and adds its response at the end (02 R26, R37). -/
theorem State.respond_port (p : Port) (r : Request) (rest : List Request) : (s.respond p r rest).port p = { s.port p with
    queue := rest, service := .fresh, responses := (s.port p).responses ++ [responseOf r (s.port p).service] } :=
  State.setPort_port_same ..

/-! ### Captures and views -/

/-- Ending a capture writes wait counts of buffers and the capture queue; no view and no port (05 R97). -/
theorem State.endCapture_outside_views (c : Capture) : (s.endCapture c).views = s.views ∧ (s.endCapture c).ports = s.ports ∧
    (s.endCapture c).events = s.events ∧ (s.endCapture c).captures = s.captures.erase c := by
  suffices h : ∀ (l : List BufId) (t : State), (t.lowerWaits l).views = t.views ∧ (t.lowerWaits l).ports = t.ports ∧
      (t.lowerWaits l).events = t.events ∧ (t.lowerWaits l).captures = t.captures from h _ _
  intro l
  induction l with
  | nil => exact fun _ => ⟨rfl, rfl, rfl, rfl⟩
  | cons b l ih => exact fun t => ih _

end

end Sys2Proof.Machine
end

