-- ==== Sys2Proof/Laws/Link.lean ====
section
/-! SUPPORT. What the link controller's shared operations write, said once (08 R143, R145, R146). -/

namespace Sys2Proof.Machine

section
variable (s : State)

/-! ### Results -/

theorem State.formResult_eq (c : Completion) (d : List Byte) :
    s.formResult c d = s.setLink { s.link with state := .result (resultBytes c d) 0 } := rfl

@[simp] theorem State.formResult_regions (c : Completion) (d : List Byte) : (s.formResult c d).regions = s.regions := rfl

@[simp] theorem State.formResult_state (c : Completion) (d : List Byte) :
    (s.formResult c d).link.state = .result (resultBytes c d) 0 := rfl

/-- A result has its data's length and three bytes more (08 R146). -/
theorem resultBytes_length (c : Completion) (d : List Byte) : (resultBytes c d).length = d.length + 3 := by
  simp [resultBytes]

/-! ### The completion of a long command -/

/-- Everything `completeLong` can do: nothing, or a long command completes, ACTIVATE and RETIRE with their region's move (01 R8,
R12; 02 R41; 08 R153). -/
theorem State.completeLong_cases :
    s.completeLong = s ∨
    (∃ r n, s.link.state = .executing (.activate r n) ∧ (s.definition r).recordCount ≤ n ∧
      s.completeLong = (s.setRegionState r .active).formResult .done []) ∨
    (∃ r a c v, s.link.state = .executing (.retire r a c v) ∧ s.regionIdle r = true ∧
      s.completeLong = (s.setRegionState r .defined).formResult .done [byteOf a, byteOf c, byteOf v]) ∨
    (∃ a v, s.link.state = .executing (.flushPort a v false) ∧ s.completeLong = s.formResult .done [byteOf a, byteOf v]) ∨
    (∃ g c v f, s.link.state = .executing (.restart g c v f false false) ∧
      s.completeLong = s.formResult .done [byteOf g, byteOf c, byteOf v, byteOf f]) := by
  unfold State.completeLong
  cases hl : s.link.state with
  | idle => exact .inl rfl
  | receiving l n => exact .inl rfl
  | result l n => exact .inl rfl
  | executing e =>
    cases e with
    | activate r n =>
      by_cases h : (s.definition r).recordCount ≤ n
      · exact .inr (.inl ⟨r, n, rfl, h, by simp [h]⟩)
      · exact .inl (by simp [h])
    | retire r a c v =>
      by_cases h : s.regionIdle r = true
      · exact .inr (.inr (.inl ⟨r, a, c, v, rfl, h, by simp [h]⟩))
      · exact .inl (by simp [h])
    | flushPort a v w =>
      cases w
      · exact .inr (.inr (.inr (.inl ⟨a, v, rfl, rfl⟩)))
      · exact .inl rfl
    | restart g c v f wm wc =>
      cases wm <;> cases wc
      · exact .inr (.inr (.inr (.inr ⟨g, c, v, f, rfl, rfl⟩)))
      all_goals exact .inl rfl

/-- Outside EXECUTING no long command completes. -/
theorem State.completeLong_idle (h : ∀ e, s.link.state ≠ .executing e) : s.completeLong = s := by
  obtain h' | ⟨_, _, e, -⟩ | ⟨_, _, _, _, e, -⟩ | ⟨_, _, e, -⟩ | ⟨_, _, _, _, e, -⟩ := s.completeLong_cases
  · exact h'
  all_goals exact absurd e (h _)

/-- A completion writes the region table and the link alone. -/
theorem State.completeLong_fields : s.completeLong = (s.setRegions s.completeLong.regions).setLink s.completeLong.link := by
  obtain h | ⟨_, _, -, -, h⟩ | ⟨_, _, _, _, -, -, h⟩ | ⟨_, _, -, h⟩ | ⟨_, _, _, _, -, h⟩ := s.completeLong_cases <;> rw [h] <;> rfl

/-- A completion never leaves the frame in progress, the last refusal or the bits presented otherwise than they were. -/
theorem State.completeLong_link : s.completeLong.link.frame = s.link.frame ∧
    s.completeLong.link.lastRefusal = s.link.lastRefusal ∧ s.completeLong.link.presented = s.link.presented := by
  obtain h | ⟨_, _, -, -, h⟩ | ⟨_, _, _, _, -, -, h⟩ | ⟨_, _, -, h⟩ | ⟨_, _, _, _, -, h⟩ := s.completeLong_cases <;> rw [h] <;>
    exact ⟨rfl, rfl, rfl⟩

/-! ### Sending a command -/

/-- What sending a command does with a ready link: it executes, with 0x00 presented on every byte of its frame. -/
theorem State.sendCommand_ready (c : Command) (h : s.linkReady) :
    s.sendCommand c = (s.setLink { s.link with presented := zeros (8 * frameLength c) }).execute c := by
  obtain ⟨h1, h2, h3⟩ := h
  unfold State.sendCommand
  simp [h1, h2, h3, frameLength]

/-- Executing a command that answers at once, from a part at rest that it leaves at rest: its result is formed and nothing follows. -/
theorem State.execute_done (c : Command) (t : State) (d : List Byte) (h : s.carryOut c = (t, .done d))
    (rest : (t.formResult .done d).movable = []) : s.execute c = t.formResult .done d := by
  have e : s.execute c = (t.formResult .done d).settle := by unfold State.execute; rw [h]; rfl
  rw [e]
  unfold State.settle
  rw [State.route_rest _ rest]
  exact State.completeLong_idle _ (by intro e h; cases h)

/-- Executing a command whose check fails changes nothing but the link, whatever the command. -/
theorem State.execute_fail (c : Command) (code : Completion) (h : s.carryOut c = (s, .fail code))
    (rest : (s.formResult code []).movable = []) : s.execute c = s.formResult code [] := by
  have e : s.execute c = (s.formResult code []).settle := by unfold State.execute; rw [h]; rfl
  rw [e]
  unfold State.settle
  rw [State.route_rest _ rest]
  exact State.completeLong_idle _ (by intro e h; cases h)

/-- Whether a router can move does not depend on the link. -/
theorem State.movable_setLink (x : Link) : (s.setLink x).movable = s.movable := rfl

end

end Sys2Proof.Machine
end

