-- ==== Sys2Proof/Laws/PerInstr.lean ====
section
/-! SUPPORT. What the check of a command's operands guarantees, command by command: a well-formed request has a word address and one to
eight beats, a well-formed run of a frame is cut short only where chip select rises, and a well-formed BAD_OPENER has none of the
four known openers. -/

namespace Sys2Proof.Laws.Carried

/-- The run of a frame a command carries, if it carries one. -/
def frameOf : Instr → Option FramePart
  | .hardReset => none
  | .hardResetDeassert _ => none
  | .portReset _ => none
  | .portResetDeassert _ => none
  | .timebaseTick => none
  | .activateComplete _ => none
  | .requestTaken _ _ => none
  | .holdLimit _ => none
  | .updateExpiry _ => none
  | .memoryGrant => none
  | .memoryAnswer _ _ => none
  | .memoryTimeout => none
  | .commitTake => none
  | .drainComplete _ => none
  | .captureRequest => none
  | .viewExpired _ _ => none
  | .commandFrame f => some f
  | .resultFrame f => some f
  | .statusFrame f => some f
  | .abandonFrame f => some f
  | .badOpener _ f => some f
  | .identify => none
  | .defineRegion _ => none
  | .activate _ => none
  | .retire _ _ => none
  | .readRegion _ => none
  | .clearRegion _ => none
  | .readRecord _ _ => none
  | .clearTorn _ _ => none
  | .setWatch _ => none
  | .clearWatch _ => none
  | .readWatch _ => none
  | .readEvents _ => none
  | .setEventMasks _ _ => none
  | .flushPort _ => none
  | .flushPortComplete _ => none
  | .restart => none
  | .restartComplete _ => none

/-- A run of a frame that chip select can carry: only its rise cuts a byte short, and after a rise inside the opener nothing follows
(08 R138). -/
def Run (f : FramePart) : Prop :=
  (f.ends = true ∨ f.cut = 0) ∧ (f.opens = .shortOpener → f.bytes = [] ∧ f.ends = true)

/-- The check of a run says what it should. -/
theorem run_of_wellFormed {f : FramePart} (h : f.wellFormed = true) : Run f := by
  simp only [FramePart.wellFormed, Bool.and_eq_true, Bool.or_eq_true, beq_iff_eq, bne_iff_ne, List.isEmpty_iff] at h
  exact ⟨h.1, fun e => h.2.resolve_left fun n => n e⟩

/-- What a well-formed command carries (02 R23; 08 R138, R140). -/
def Statement (i : Instr) : Prop :=
  i.wellFormed = true →
    (∀ p r, i = .requestTaken p r → r.address.toNat % 4 = 0 ∧ 1 ≤ r.beats ∧ r.beats ≤ 8) ∧
    (∀ f, frameOf i = some f → Run f) ∧
    (∀ o f, i = .badOpener o f → o ∉ knownOpeners)

theorem hardReset : Statement .hardReset := fun _ => ⟨fun _ _ e => by (cases e), fun _ e => by (cases e), fun _ _ e => by cases e⟩

theorem hardResetDeassert (chipSelectLow : Bool) : Statement (.hardResetDeassert chipSelectLow) := fun _ => ⟨fun _ _ e => by (cases e), fun _ e => by (cases e), fun _ _ e => by cases e⟩

theorem portReset (p : Port) : Statement (.portReset p) := fun _ => ⟨fun _ _ e => by (cases e), fun _ e => by (cases e), fun _ _ e => by cases e⟩

theorem portResetDeassert (p : Port) : Statement (.portResetDeassert p) := fun _ => ⟨fun _ _ e => by (cases e), fun _ e => by (cases e), fun _ _ e => by cases e⟩

theorem timebaseTick : Statement .timebaseTick := fun _ => ⟨fun _ _ e => by (cases e), fun _ e => by (cases e), fun _ _ e => by cases e⟩

theorem activateComplete (c : Cause) : Statement (.activateComplete c) := fun _ => ⟨fun _ _ e => by (cases e), fun _ e => by (cases e), fun _ _ e => by cases e⟩

theorem requestTaken (p : Port) (r : Request) : Statement (.requestTaken p r) := by
  intro h
  simp only [Instr.wellFormed, Request.wellFormed, Bool.and_eq_true, beq_iff_eq, decide_eq_true_eq] at h
  refine ⟨fun _ _ e => ?_, fun _ e => by simp [frameOf] at e, fun _ _ e => by cases e⟩
  cases e; exact ⟨h.1.1, h.1.2, h.2⟩

theorem holdLimit (p : Port) : Statement (.holdLimit p) := fun _ => ⟨fun _ _ e => by (cases e), fun _ e => by (cases e), fun _ _ e => by cases e⟩

theorem updateExpiry (b : BufId) : Statement (.updateExpiry b) := fun _ => ⟨fun _ _ e => by (cases e), fun _ e => by (cases e), fun _ _ e => by cases e⟩

theorem memoryGrant : Statement .memoryGrant := fun _ => ⟨fun _ _ e => by (cases e), fun _ e => by (cases e), fun _ _ e => by cases e⟩

theorem memoryAnswer (tag : Byte) (a : MemAnswer) : Statement (.memoryAnswer tag a) := fun _ => ⟨fun _ _ e => by (cases e), fun _ e => by (cases e), fun _ _ e => by cases e⟩

theorem memoryTimeout : Statement .memoryTimeout := fun _ => ⟨fun _ _ e => by (cases e), fun _ e => by (cases e), fun _ _ e => by cases e⟩

theorem commitTake : Statement .commitTake := fun _ => ⟨fun _ _ e => by (cases e), fun _ e => by (cases e), fun _ _ e => by cases e⟩

theorem drainComplete (c : Cause) : Statement (.drainComplete c) := fun _ => ⟨fun _ _ e => by (cases e), fun _ e => by (cases e), fun _ _ e => by cases e⟩

theorem captureRequest : Statement .captureRequest := fun _ => ⟨fun _ _ e => by (cases e), fun _ e => by (cases e), fun _ _ e => by cases e⟩

theorem viewExpired (p : Port) (v : ViewIx) : Statement (.viewExpired p v) := fun _ => ⟨fun _ _ e => by (cases e), fun _ e => by (cases e), fun _ _ e => by cases e⟩

theorem commandFrame (f : FramePart) : Statement (.commandFrame f) := by
  intro h
  exact ⟨fun _ _ e => by (cases e), fun _ e => by cases e; exact run_of_wellFormed h, fun _ _ e => by cases e⟩

theorem resultFrame (f : FramePart) : Statement (.resultFrame f) := by
  intro h
  exact ⟨fun _ _ e => by (cases e), fun _ e => by cases e; exact run_of_wellFormed h, fun _ _ e => by cases e⟩

theorem statusFrame (f : FramePart) : Statement (.statusFrame f) := by
  intro h
  exact ⟨fun _ _ e => by (cases e), fun _ e => by cases e; exact run_of_wellFormed h, fun _ _ e => by cases e⟩

theorem abandonFrame (f : FramePart) : Statement (.abandonFrame f) := by
  intro h
  exact ⟨fun _ _ e => by (cases e), fun _ e => by cases e; exact run_of_wellFormed h, fun _ _ e => by cases e⟩

theorem badOpener (opener : Byte) (f : FramePart) : Statement (.badOpener opener f) := by
  intro h
  simp only [Instr.wellFormed, Bool.and_eq_true, Bool.not_eq_true'] at h
  refine ⟨fun _ _ e => by (cases e), fun _ e => ?_, fun _ _ e => ?_⟩
  · cases e; exact run_of_wellFormed h.1
  · cases e; simpa using h.2

theorem identify : Statement .identify := fun _ => ⟨fun _ _ e => by (cases e), fun _ e => by (cases e), fun _ _ e => by cases e⟩

theorem defineRegion (d : DefineParams) : Statement (.defineRegion d) := fun _ => ⟨fun _ _ e => by (cases e), fun _ e => by (cases e), fun _ _ e => by cases e⟩

theorem activate (region : Byte) : Statement (.activate region) := fun _ => ⟨fun _ _ e => by (cases e), fun _ e => by (cases e), fun _ _ e => by cases e⟩

theorem retire (region : Byte) (mode : Byte) : Statement (.retire region mode) := fun _ => ⟨fun _ _ e => by (cases e), fun _ e => by (cases e), fun _ _ e => by cases e⟩

theorem readRegion (region : Byte) : Statement (.readRegion region) := fun _ => ⟨fun _ _ e => by (cases e), fun _ e => by (cases e), fun _ _ e => by cases e⟩

theorem clearRegion (region : Byte) : Statement (.clearRegion region) := fun _ => ⟨fun _ _ e => by (cases e), fun _ e => by (cases e), fun _ _ e => by cases e⟩

theorem readRecord (region : Byte) (record : Half) : Statement (.readRecord region record) := fun _ => ⟨fun _ _ e => by (cases e), fun _ e => by (cases e), fun _ _ e => by cases e⟩

theorem clearTorn (region : Byte) (record : Half) : Statement (.clearTorn region record) := fun _ => ⟨fun _ _ e => by (cases e), fun _ e => by (cases e), fun _ _ e => by cases e⟩

theorem setWatch (w : WatchParams) : Statement (.setWatch w) := fun _ => ⟨fun _ _ e => by (cases e), fun _ e => by (cases e), fun _ _ e => by cases e⟩

theorem clearWatch (watch : Byte) : Statement (.clearWatch watch) := fun _ => ⟨fun _ _ e => by (cases e), fun _ e => by (cases e), fun _ _ e => by cases e⟩

theorem readWatch (watch : Byte) : Statement (.readWatch watch) := fun _ => ⟨fun _ _ e => by (cases e), fun _ e => by (cases e), fun _ _ e => by cases e⟩

theorem readEvents (maximum : Byte) : Statement (.readEvents maximum) := fun _ => ⟨fun _ _ e => by (cases e), fun _ e => by (cases e), fun _ _ e => by cases e⟩

theorem setEventMasks (queueMask : Byte) (attentionMask : Half) : Statement (.setEventMasks queueMask attentionMask) := fun _ => ⟨fun _ _ e => by (cases e), fun _ e => by (cases e), fun _ _ e => by cases e⟩

theorem flushPort (port : Byte) : Statement (.flushPort port) := fun _ => ⟨fun _ _ e => by (cases e), fun _ e => by (cases e), fun _ _ e => by cases e⟩

theorem flushPortComplete (c : Cause) : Statement (.flushPortComplete c) := fun _ => ⟨fun _ _ e => by (cases e), fun _ e => by (cases e), fun _ _ e => by cases e⟩

theorem restart : Statement .restart := fun _ => ⟨fun _ _ e => by (cases e), fun _ e => by (cases e), fun _ _ e => by cases e⟩

theorem restartComplete (c : Cause) : Statement (.restartComplete c) := fun _ => ⟨fun _ _ e => by (cases e), fun _ e => by (cases e), fun _ _ e => by cases e⟩

end Sys2Proof.Laws.Carried
end

