-- ==== Sys2Proof/Laws/Timers.lean ====
section
/-! SUPPORT. The timers, said once (07 R122): when one is due, what its own row and the tick do with it, and how a property that
every expiry keeps passes through a tick. -/

namespace Sys2Proof.Machine

theorem mem_allTimers : ∀ x : Timer, x ∈ allTimers
  | .hold p => by cases p <;> decide
  | .update b => by revert b; decide
  | .view p v => by cases p <;> revert v <;> decide
  | .memory => by decide

theorem due_iff (now start : Word) (limit : Nat) : due now start limit = true ↔ (now - start).toNat = limit := by
  simp [due]

/-- The timeout records FAULT for each word still UNANSWERED, and keeps every other answer (06 R114). -/
theorem closeUnanswered_eq : closeUnanswered = fun as => as.map fun x => if x = .unanswered then .fault else x := by
  funext as
  unfold closeUnanswered
  congr 1
  funext x
  cases x <;> rfl

section
variable (s : State)

/-- What the model finds due is due. -/
theorem State.Due.of_timerDue {s : State} {x : Timer} (h : s.timerDue x = true) : s.Due x := by
  cases x with
  | hold p =>
    unfold State.timerDue State.heldOf at h
    dsimp only at h
    split at h
    · cases h
    · next y e =>
      exact ⟨y, List.mem_of_find?_eq_some e, by simpa using List.find?_some e, (due_iff ..).1 h⟩
  | update b => simpa [State.timerDue, State.Due, due_iff, and_assoc] using h
  | view p v => simpa [State.timerDue, State.Due, due_iff, and_assoc] using h
  | memory =>
    unfold State.timerDue at h
    dsimp only at h
    split at h
    · cases h
    · next t e => exact ⟨t, e, (due_iff ..).1 h⟩

/-- A port has one held write: the one that the model finds for it. -/
theorem State.PortsLawful.heldOf {s : State} (l : s.PortsLawful) {h : HeldWrite} (m : h ∈ s.pool.holds) :
    s.heldOf h.port = some h := by
  have n := l.ports
  unfold State.heldOf
  generalize s.pool.holds = hs at m n
  induction hs with
  | nil => cases m
  | cons y ys ih =>
    rw [List.map_cons, List.nodup_cons] at n
    obtain rfl | m := List.mem_cons.1 m
    · simp
    · have e : y.port ≠ h.port := fun e => n.1 (e ▸ List.mem_map_of_mem m)
      rw [List.find?_cons_of_neg (by simpa using e)]
      exact ih m n.2

/-- What is due the model finds due, where a port has one held write. -/
theorem State.Due.timerDue {s : State} (l : s.PortsLawful) {x : Timer} (h : s.Due x) : s.timerDue x = true := by
  cases x with
  | hold p =>
    obtain ⟨y, m, rfl, e⟩ := h
    unfold State.timerDue
    dsimp only
    rw [l.heldOf m]
    exact (due_iff ..).2 e
  | update b => simpa [State.timerDue, State.Due, due_iff, and_assoc] using h
  | view p v => simpa [State.timerDue, State.Due, due_iff, and_assoc] using h
  | memory =>
    obtain ⟨t, e, h⟩ := h
    unfold State.timerDue
    dsimp only
    rw [e]
    exact (due_iff ..).2 h

theorem State.mem_dueTimers (x : Timer) : x ∈ s.dueTimers ↔ s.timerDue x = true := by
  simp [State.dueTimers, mem_allTimers]

/-- A row whose timer is not due changes nothing (log 6, log 7). -/
theorem State.expireIfDue_idle (x : Timer) (h : ¬ s.Due x) : s.expireIfDue x = s := by
  unfold State.expireIfDue
  rw [if_neg (fun e => h (.of_timerDue e))]

/-- A row whose timer is due is its expiry. -/
theorem State.expireIfDue_due (l : s.PortsLawful) (x : Timer) (h : s.Due x) : s.expireIfDue x = s.expire x := by
  unfold State.expireIfDue
  rw [if_pos (h.timerDue l)]

/-- With no timer due, the end of the microsecond expires none. -/
theorem State.expireDue_idle (h : ∀ x, ¬ s.Due x) : s.expireDue = s := by
  have e : s.dueTimers = [] := List.eq_nil_iff_forall_not_mem.2 fun x m => h x (.of_timerDue ((s.mem_dueTimers x).1 m))
  unfold State.expireDue
  cases allTimers.length with
  | zero => rfl
  | succ n => unfold runTimers; rw [e]

/-- A property that every due expiry and every free choice keeps holds after the timers of a microsecond, if it held before. -/
theorem runTimers_keeps {P : State → Prop} (choose : ∀ s n, P s → P (s.setChoices n))
    (expire : ∀ s x, P s → s.timerDue x = true → P (s.expire x)) (n : Nat) (s : State) (h : P s) : P (runTimers n s) := by
  induction n generalizing s with
  | zero => exact h
  | succ n ih =>
    unfold runTimers
    split
    · exact h
    · next x e => exact ih _ (expire _ _ h ((s.mem_dueTimers x).1 (by rw [e]; exact List.mem_cons_self)))
    · next x y xs e =>
      refine ih _ (expire _ _ (choose _ _ h) ?_)
      have m : (x :: y :: xs).getD (Config.freeChoice s.choices % (x :: y :: xs).length) x ∈ s.dueTimers := by
        have lt : Config.freeChoice s.choices % (x :: y :: xs).length < (x :: y :: xs).length := Nat.mod_lt _ (by simp)
        rw [e, List.getD_eq_getElem _ _ lt]
        exact List.getElem_mem lt
      exact (s.mem_dueTimers _).1 m

/-! ### The tick (07 R121, R122; 01 R8) -/

theorem State.tick_in_reset (h : s.hardResetLine = true) : s.tick = s := by
  unfold State.tick
  rw [if_pos h]

/-- With no timer due, a tick advances the timebase and fills an entry. -/
theorem State.tick_idle (h : s.hardResetLine = false) (d : ∀ x, ¬ s.Due x) :
    s.tick = (s.setTimebase (s.timebase + 1)).fillEntry := by
  unfold State.tick
  rw [if_neg (by rw [h]; exact Bool.false_ne_true), s.expireDue_idle d]

/-! ### A frame that ends inside its opener (08 R138) -/

/-- With chip select high, a short opener presents its bits as 0 and nothing else. -/
theorem State.shortOpener_high (n : Nat) (h : s.link.frame = none) :
    s.shortOpener n = s.setLink { s.link with presented := zeros n } := by
  unfold State.shortOpener
  rw [h]

end

end Sys2Proof.Machine
end

