-- ==== Sys2Proof/Tests/Slice0.lean ====
section
/-! SUPPORT. The model's own tests: ill-formed commands refused by the check, one step per command with the value the manual gives,
and for every statement with hypotheses a state and operands that meet them (`witness_<statement>`). -/

namespace Sys2Proof.Tests

open Sys2Proof.Machine

set_option Elab.async false

/-! ### Small states -/

/-- The state after one command. -/
def after (i : Instr) (s : State) : State :=
  match exec i s with
  | .next t => t
  | .fault _ => s
  | .refused _ => s

/-- The result the link holds. -/
def resultOf (s : State) : List Byte :=
  match s.link.state with
  | .result bytes _ => bytes
  | .idle => []
  | .receiving _ _ => []
  | .executing _ => []

/-- A region of 32 records of 4 words at 0x100: writer U0, reader U1, other port U2, version word at offset 1. -/
def d0 : Definition :=
  { regionIndex := 0, base := 0x100, recordWords := 4, recordCount := 32, versionBase := 0, writer := .u0,
    readers := ⟨false, true, false⟩, closeOffset := 3, releaseOffset := 2, versionWord := some 1, policy := .closeOldest,
    action := .discard, updateLimit := 10, viewLifetime := 20 }

/-- A region of 2 records of 1 word at 0x400, the version range next to that of `d0`. -/
def d1 : Definition :=
  { d0 with regionIndex := 1, base := 0x400, recordWords := 1, recordCount := 2, versionBase := 32, closeOffset := 0,
            releaseOffset := 0, versionWord := none }

/-- Region 0 ACTIVE under a definition, region 1 DEFINED, time 1000, nothing going on. -/
def baseWith (d : Definition) : State :=
  { State.reset with regions := put (put State.reset.regions 0 ⟨.active, d⟩) 1 ⟨.defined, d1⟩, timebase := 1000 }

/-- `baseWith` the region of `d0`. -/
def base : State := baseWith d0

/-- A buffer of U0 for a record of region 0, with word 0 staged whole as 0x11. -/
def buf (record : Nat) (st : BufferState) : Buffer :=
  { Buffer.initial with state := st, record := record, image := putD (Vector.replicate 16 0) 0 0x11,
                        mask := putD (Vector.replicate 16 0) 0 0xF, openingTime := 990 }

/-- One GATHERING buffer, of record 0. -/
def gathS : State :=
  { base with pool := { Pool.initial with buffers := put Pool.initial.buffers 0 (buf 0 .gathering), gathering := ⟨[0], [], []⟩ } }

/-- One CLOSED buffer, of record 0. -/
def closedS : State :=
  { base with pool := { Pool.initial with buffers := put Pool.initial.buffers 0 (buf 0 .closed), closeOrder := [0] } }

/-- The pool full of CLOSED buffers of record 1, under a definition. -/
def fullWith (d : Definition) : State :=
  { baseWith d with pool := { Pool.initial with buffers := Vector.replicate 16 (buf 1 .closed), closeOrder := allBuffers } }

/-- Four GATHERING buffers of U0, of records 0 to 3, under a definition. -/
def fourWith (d : Definition) : State :=
  { baseWith d with pool :=
      { Pool.initial with
        buffers := put (put (put (put Pool.initial.buffers 0 (buf 0 .gathering)) 1 (buf 1 .gathering)) 2 (buf 2 .gathering)) 3
          (buf 3 .gathering)
        gathering := ⟨[0, 1, 2, 3], [], []⟩ } }

/-- The commit of record 0's buffer in WRITING: word 0 answered, the version word not yet. -/
def job0 : CommitJob := ⟨0, 0, [⟨0x11, 0xF⟩, ⟨1, 0xF⟩], [.okay 0, .unanswered]⟩

/-- The transaction of `job0`, granted at 936 and so 64 µs old. -/
def tr0 : Transaction := ⟨.commit, 7, .write 0x100 job0.words, 936, job0.answers, false⟩

/-- A commit in flight, its last answer to come. -/
def writingS : State :=
  { base with
    pool := { Pool.initial with buffers := put Pool.initial.buffers 0 (buf 0 .committing), closeOrder := [0] }
    engine := .writing job0
    mem := { MemPort.initial with outstanding := some tr0 } }

/-- A view of record 0 with words 0, 1 and 3 filled and byte 0 of word 2 supplied. -/
def viewOf0 (st : ViewState) : View :=
  { View.initial with
    state := st, version := 5, image := Vector.replicate 16 0x22, supplied := putD (Vector.replicate 16 0) 2 1,
    fill := put (put (put (Vector.replicate 16 false) 0 true) 1 true) 3 true, completeTime := 980 }

/-- U1 with view 0 HELD and filled. -/
def heldS : State :=
  { base with views :=
      { u0 := .initial
        u1 := ⟨put PortViews.initial.views 0 { viewOf0 .held with fill := Vector.replicate 16 true }, [0]⟩, u2 := .initial } }

/-- The capture of word 2 for U1's view 0. -/
def cap0 (st : CaptureState) : Capture := ⟨some 0, .u1, 0, 0, 2, 1, [], st, [.unanswered]⟩

/-- U1 with view 0 CAPTURING and its capture in a state. -/
def captS (st : CaptureState) : State :=
  { base with
    views := { u0 := .initial, u1 := ⟨put PortViews.initial.views 0 (viewOf0 .capturing), [0]⟩, u2 := .initial }
    captures := [cap0 st] }

/-- The transaction of `cap0`, 64 µs old. -/
def trCap : Transaction := ⟨.capture, 9, .read 0x108 1, 936, [.unanswered], false⟩

/-- The capture of word 2 READING. -/
def readingS : State := { captS .reading with mem := { MemPort.initial with outstanding := some trCap } }

/-- The same with U1's request for words 1 and 2 waiting on the view. -/
def waitingS : State :=
  { readingS with ports := { u0 := .initial, u1 := { PortState.initial with queue := [.read 0x104 2], service :=
      { Service.fresh with piece := some ⟨2, some ⟨0, 0, 1⟩, .onView 0⟩ } }, u2 := .initial } }

/-- U2 with a plain read of two words outstanding, the first answered, 64 µs old. -/
def trPlain : Transaction := ⟨.plain .u2, 3, .read 0x1000 2, 936, [.okay 0xAA, .unanswered], false⟩

/-- The state of `trPlain`. -/
def plainS : State :=
  { base with
    ports := { u0 := .initial, u1 := .initial, u2 := { PortState.initial with queue := [.read 0x1000 2], service :=
      { Service.fresh with piece := some ⟨2, none, .memory⟩ } } }
    mem := { MemPort.initial with outstanding := some trPlain } }

/-- U0's read-own of words 0 to 2: byte 0 of word 0 staged, version 6, the read of words 0 to 2 one answer short. -/
def snap0 : Snapshot := ⟨0, some 1, [⟨0x77, 1⟩, ⟨0, 0⟩, ⟨0, 0⟩], 6, .torn, 0⟩

/-- The transaction of that read. -/
def trOwn : Transaction := ⟨.plain .u0, 4, .read 0x100 3, 990, [.okay 0x11111111, .okay 0x99, .unanswered], false⟩

/-- The state of `trOwn`. -/
def ownS : State :=
  { base with
    ports := { u0 := { PortState.initial with queue := [.read 0x100 3], service :=
      { Service.fresh with piece := some ⟨3, some ⟨0, 0, 0⟩, .readOwn snap0⟩ } }, u1 := .initial, u2 := .initial }
    mem := { MemPort.initial with outstanding := some trOwn } }

/-- U0's held write of record 0, held for exactly 500 µs, behind a full pool. -/
def hold0 : HeldWrite := ⟨.u0, ⟨0, 0, 0⟩, [⟨0x33, 0xF⟩], 500⟩

/-- The state of `hold0`. -/
def holdS : State :=
  { fullWith d0 with
    pool := { (fullWith d0).pool with holds := [hold0] }
    ports := { u0 := { PortState.initial with queue := [.write 0x100 [⟨0x33, 0xF⟩]], service :=
      { Service.fresh with piece := some ⟨1, some ⟨0, 0, 0⟩, .held⟩ } }, u1 := .initial, u2 := .initial } }

/-- A state with a link state in its place. -/
def linked (s : State) (x : LinkState) : State := { s with link := { s.link with state := x } }

/-- A state with region 0 in a region state. -/
def region0 (s : State) (x : RegionState) : State := s.setRegionState 0 x

/-- A watch on word 0 of record 0, condition CHANGED, ONCE. -/
def watch0 : Watch := ⟨.active, 0, some 0, 0, 0xFF, 0x22, .changed, .once⟩

/-- A state with `watch0` as watch 2. -/
def watched (s : State) : State := { s with events := { s.events with watches := put s.events.watches 2 watch0 } }

/-- An event of region 1. -/
def ev0 : Event := ⟨5, .viewExpired, 1, .u1, 0, 9, 77⟩

/-- A state with one event queued and two lost, LOST in the attention mask. -/
def queuedS : State :=
  { base with events := { base.events with queue := [ev0], lost := 2, sequence := 6, attentionMask := 0x100, attention := true } }

/-- DEFINE REGION's parameters for `d0`, sent for region 2. -/
def p0 : DefineParams := ⟨2, 0x100, 4, 32, 0, 0x00, 0x02, 3, 2, 1, 0x02, 0x00, 10, 20⟩

/-- `gathS` under the expiry action CLOSE. -/
def gathCloseS : State := gathS.setRegion 0 ⟨.active, { d0 with action := .close }⟩

/-- Every word of a CLOSED buffer of record 0 staged. -/
def coveredS : State :=
  { base with pool :=
      { Pool.initial with
        buffers := put Pool.initial.buffers 0 { buf 0 .closed with mask := Vector.replicate 16 0xF }, closeOrder := [0] } }

/-- The pool full with a commit of record 1 in flight, its last answer to come, and a held write of U0 for a word of record 0. -/
def freeingS (offset : Nat) : State :=
  { holdS with
    pool :=
      { holdS.pool with
        buffers := put holdS.pool.buffers 0 (buf 1 .committing), holds := [{ hold0 with spot := ⟨0, 0, offset⟩ }] }
    ports := { u0 := { PortState.initial with queue := [.write (0x100 + BitVec.ofNat 32 (4 * offset)) [⟨0x33, 0xF⟩]], service :=
      { Service.fresh with piece := some ⟨1, some ⟨0, 0, offset⟩, .held⟩ } }, u1 := .initial, u2 := .initial }
    engine := .writing job0
    mem := { MemPort.initial with outstanding := some tr0 } }

/-- U1 with its four views CAPTURING, of records 0 to 3, the first capture READING, and a read of record 4 awaiting a view. -/
def awaitingS : State :=
  { readingS with
    views :=
      { u0 := .initial
        u1 := ⟨put (put (put (put PortViews.initial.views 0 (viewOf0 .capturing)) 1 { viewOf0 .capturing with record := 1 }) 2
          { viewOf0 .capturing with record := 2 }) 3 { viewOf0 .capturing with record := 3 }, [0, 1, 2, 3]⟩, u2 := .initial }
    captures := [cap0 .reading, { cap0 .queued with view := some 1, record := 1 }, { cap0 .queued with view := some 2, record := 2 },
      { cap0 .queued with view := some 3, record := 3 }]
    ports := { u0 := .initial, u1 := { PortState.initial with queue := [.read 0x140 1], service :=
      { Service.fresh with piece := some ⟨1, some ⟨0, 4, 0⟩, .forView⟩ } }, u2 := .initial } }

/-- U1 with view 0 CAPTURING, its capture QUEUED, and the release word at offset 3. -/
def release3S : State := (captS .queued).setRegion 0 ⟨.active, { d0 with releaseOffset := 3 }⟩

/-- U2's request of two words whose first, plain, is answered but for its last word, the second in record 0. -/
def twoPieceS (r : Request) (m : MemRequest) : State :=
  { base with
    ports := { u0 := .initial, u1 := .initial, u2 := { PortState.initial with queue := [r], service :=
      { Service.fresh with piece := some ⟨1, none, .memory⟩ } } }
    mem := { MemPort.initial with outstanding := some ⟨.plain .u2, 3, m, 936, [.unanswered], false⟩ } }

/-! ### The check of a command's operands -/

theorem test_request_at_a_byte_refused : (Instr.requestTaken .u0 (.read 0x102 1)).wellFormed = false := by decide
theorem test_request_of_no_beats_refused : (Instr.requestTaken .u0 (.write 0x100 [])).wellFormed = false := by decide
theorem test_request_of_nine_beats_refused : (Instr.requestTaken .u0 (.read 0x100 9)).wellFormed = false := by decide
theorem test_request_of_eight_beats_passes : (Instr.requestTaken .u0 (.read 0xFFFFFFFC 8)).wellFormed = true := by decide
theorem test_cut_before_the_end_refused : (Instr.resultFrame ⟨.opener, [], 3, false⟩).wellFormed = false := by decide
theorem test_bytes_after_a_short_opener_refused : (Instr.commandFrame ⟨.shortOpener, [1], 3, true⟩).wellFormed = false := by decide
theorem test_short_opener_without_a_rise_refused : (Instr.commandFrame ⟨.shortOpener, [], 0, false⟩).wellFormed = false := by decide
theorem test_short_opener_passes : (Instr.commandFrame (.short 7)).wellFormed = true := by decide
theorem test_known_opener_refused : (Instr.badOpener 0x3C (.whole [])).wellFormed = false := by decide
theorem test_unknown_opener_passes : (Instr.badOpener 0x3D (.whole [])).wellFormed = true := by decide

/-! ### Lines, timebase, timers -/

/-- 01 R15, 07 R121: the region table is EMPTY and the timebase 0. -/
theorem test_hard_reset : ((after .hardReset writingS).region 0).state = .empty ∧ (after .hardReset writingS).timebase = 0 := by
  decide +kernel

/-- 08 R154: a chip-select period open at the deassertion is no frame. -/
theorem test_hard_reset_deassert :
    (after (.hardResetDeassert true) (after .hardReset base)).link.frame = some .noFrame := by decide +kernel

/-- 03 R63: U0's GATHERING buffer goes to FREE and UPDATE_ABANDONED is posted with cause PORT_RESET, sequence 0. -/
theorem test_port_reset : ((after (.portReset .u0) gathS).buffer 0).state = .free ∧
    (after (.portReset .u0) gathS).events.queue = [⟨0, .updateAbandoned .portReset, 0, .u0, 0, 0, 1000⟩] := by decide +kernel

/-- 02 R38. -/
theorem test_port_reset_deassert : (after (.portResetDeassert .u0) (after (.portReset .u0) base)).canTake .u0 = true := by
  decide +kernel

/-- 07 R121: from 4294967295 the timebase advances to 0. -/
theorem test_timebase_wraps : (after .timebaseTick (base.setTimebase 0xFFFFFFFF)).timebase = 0 := by decide +kernel

/-- 01 R8: with the last entry of region 1's range of 2 filled, the region is ACTIVE. -/
theorem test_activate_complete :
    ((after (.activateComplete .tick) (linked (base.setRegionState 1 .activating) (.executing (.activate 1 1)))).region 1).state
      = .active := by decide +kernel

/-- 07 R122: the tick that ends its microsecond expires an update that no row has, at that microsecond's time. -/
theorem test_tick_expires : (after .timebaseTick gathS).timebase = 1001 ∧ ((after .timebaseTick gathS).buffer 0).state = .free ∧
    (after .timebaseTick gathS).events.queue = [⟨0, .updateExpired .discard, 0, .u0, 0, 0, 1000⟩] := by decide +kernel

/-- 03 R57: at 500 µs the held write ends REFUSED; a microsecond before or after nothing is due. -/
theorem test_hold_limit : ((after (.holdLimit .u0) holdS).port .u0).responses = [⟨.refused, []⟩] ∧
    (after (.holdLimit .u0) (holdS.setTimebase 999)).pool.holds = [hold0] ∧
    (after (.holdLimit .u0) (holdS.setTimebase 1001)).pool.holds = [hold0] := by decide +kernel

/-- 03 R60: DISCARD. -/
theorem test_update_expiry : ((after (.updateExpiry 0) gathS).buffer 0).state = .free := by decide +kernel

/-- 05 R100: the queue mask after hard reset drops VIEW_EXPIRED. -/
theorem test_view_expired : ((after (.viewExpired .u1 0) heldS).view .u1 0).state = .free ∧
    (after (.viewExpired .u1 0) heldS).events.queue = [] := by decide +kernel

/-! ### Requests -/

/-- 09 R162: a first write of the close word opens and closes an update that holds that word alone. -/
theorem test_close_word_first :
    ((after (.requestTaken .u0 (.write 0x10C [⟨0x44, 0xF⟩])) base).buffer 0).state = .closed ∧
    bytesStaged ((after (.requestTaken .u0 (.write 0x10C [⟨0x44, 0xF⟩])) base).buffer 0).mask = 4 := by decide +kernel

/-- 02 R37: a foreign piece of one record and a plain piece behind it: the piece in hand is the plain one. -/
theorem test_pieces_in_address_order :
    (after (.requestTaken .u2 (.write 0x2FC [⟨1, 0xF⟩, ⟨2, 0xF⟩])) base).mem.plain.u2 = some (.write 0x300 [⟨2, 0xF⟩]) ∧
    (after (.requestTaken .u2 (.write 0x2FC [⟨1, 0xF⟩, ⟨2, 0xF⟩])) base).events.queue =
      [⟨0, .writeRefused .foreign, 0, .u2, 31, 0, 1000⟩] := by decide +kernel

/-! ### Memory port and engines -/

/-- 06 R111: from U0 plain the ring meets U2 plain before the commit engine, and the pointer moves to the commit engine. -/
theorem test_memory_grant :
    let s := { base with mem := { MemPort.initial with plain := ⟨none, none, some (.read 0x1000 1)⟩, commit := some (.read 0 1) } }
    (after .memoryGrant s).mem.ring = .commit ∧ (after .memoryGrant s).mem.issued = [⟨0, .read 0x1000 1⟩] := by decide +kernel

/-- 04 R76: a commit without fault whose mask does not cover the record leaves the mark, and the version wraps 65535 to 0. -/
theorem test_memory_answer :
    let s := writingS.setEntry 0 0 ⟨0xFFFF, .torn⟩
    (after (.memoryAnswer 7 (.okay 0)) s).entry 0 0 = ⟨0, .torn⟩ ∧
    ((after (.memoryAnswer 7 (.okay 0)) s).buffer 0).state = .free := by decide +kernel

/-- 06 R114, 04 R76, R77: a word closed by the timeout makes the record TORN. -/
theorem test_memory_timeout : (after .memoryTimeout writingS).entry 0 0 = ⟨1, .torn⟩ ∧
    (after .memoryTimeout writingS).events.queue = [⟨0, .recordTorn .commitFault, 0, .u0, 0, 1, 1000⟩] := by decide +kernel

/-- 04 R72, R73: the burst runs from the staged word to the version word, which carries the new version. -/
theorem test_commit_take :
    (after .commitTake closedS).mem.commit = some (.write 0x100 [⟨0x11, 0xF⟩, ⟨0x00000001, 0xF⟩]) := by decide +kernel

/-- 05 R91: the read of word 2 of record 0 is at base + 8. -/
theorem test_capture_request : (after .captureRequest (captS .queued)).mem.capture = some (.read 0x108 1) := by decide +kernel

/-- 05 R96: the byte supplied by the basis stays, the others are memory's. -/
theorem test_capture_fills :
    cellD ((after (.memoryAnswer 9 (.okay 0xAABBCCDD)) readingS).view .u1 0).image 2 0 = 0xAABBCC22 := by decide +kernel

/-- 02 R34: byte 0 from the snapshot, the version word from the entry, TORN from the mark. -/
theorem test_read_own : ((after (.memoryAnswer 4 (.okay 0x33)) ownS).port .u0).responses =
    [⟨.torn, [0x11111177, 0x00000006, 0x33]⟩] := by decide +kernel

/-! ### Frames -/

/-- 08 R144's example: 0x3C, 0x11, 0x02, 0x2A is ACTIVATE of region 2, which is EMPTY here: WRONG_STATE. -/
theorem test_command_frame :
    (resultOf (after (.commandFrame (.whole [0x11, 0x02, 0x2A])) base)).take 2 = [0x07, 0x00] := by decide +kernel

/-- 08 R144, R147: DONE with no data is 0x00, 0x00, 0xB8, and reading it to its end leaves IDLE. -/
theorem test_result_frame :
    let s := after (.resultFrame (.whole [0, 0, 0])) (linked base (.result [0x00, 0x00, 0xB8] 0))
    s.link.state = .idle ∧ s.link.presented.drop 24 = [true, false, true, true, true, false, false, false] := by decide +kernel

/-- 08 R147: a byte cut short does not advance the read position. -/
theorem test_result_frame_cut :
    (after (.resultFrame ⟨.opener, [0], 5, true⟩) (linked base (.result [0x00, 0x00, 0xB8] 0))).link.state
      = .result [0x00, 0x00, 0xB8] 1 := by decide +kernel

/-- 08 R138: a frame that ends after five bits of its opener presents five 0 bits, and the link stands. -/
theorem test_short_opener : (after (.resultFrame (.short 5)) (linked base (.result [0x00, 0x00, 0xB8] 0))).link
    = ⟨.result [0x00, 0x00, 0xB8] 0, .none, none, [false, false, false, false, false]⟩ := by decide +kernel

/-- 08 R148, R156: a RESULT of 3 bytes, one event, two lost, the line asserted. -/
theorem test_status_frame :
    (after (.statusFrame (.whole [0, 0, 0, 0, 0, 0, 0])) (linked queuedS (.result [0x00, 0x00, 0xB8] 0))).link.presented.drop 8
      = ([0x03, 0x00, 0x03, 0x00, 0x01, 0x02, 0x01] : List Byte).flatMap bitsOf := by decide +kernel

/-- 08 R149: the result is discarded. -/
theorem test_abandon_frame : (after (.abandonFrame (.whole [])) (linked base (.result [0x00, 0x00, 0xB8] 1))).link.state = .idle := by
  decide +kernel

/-- 08 R140. -/
theorem test_bad_opener : (after (.badOpener 0x3D (.whole [])) base).link.lastRefusal = .badOpener := by decide +kernel

/-! ### Commands: the result's code, length and data (08 R146, 8.7) -/

/-- 08 R161. -/
theorem test_identify : (resultOf (after .identify base)).take 13 =
    [0x00, 11, 0x34, 0x16, 0x01, 3, 16, 0x10, 0x00, 16, 4, 8, 32] := by decide +kernel

/-- 01 R3, 08 R157: the 21 bytes read back behind the state. -/
theorem test_define_region :
    let s := after (.abandonFrame (.whole [])) (after (.defineRegion p0) base)
    (resultOf (after (.readRegion 2) s)).take 24 =
      [0x00, 22, 0x01, 2, 0x00, 0x00, 0x01, 0x00, 4, 0x00, 0x20, 0x00, 0x00, 0x00, 0x02, 3, 2, 1, 0x02, 0x00, 0x00, 0x0A, 0x00, 0x14]
    := by decide +kernel

/-- 01 R2: the version word at the close offset. -/
theorem test_define_region_illegal : (resultOf (after (.defineRegion { p0 with versionWord := 3 }) base)).take 2 = [0x05, 0x00] := by
  decide +kernel

/-- 01 R7: taken, the link stays in EXECUTING. -/
theorem test_activate : (after (.activate 1) base).link.state = .executing (.activate 1 0) := by decide +kernel

/-- 01 R7: a region that shares addresses with an ACTIVE one. -/
theorem test_activate_conflict :
    (resultOf (after (.activate 2) (base.setRegion 2 ⟨.defined, { d0 with base := 0x2FC, versionBase := 40 }⟩))).take 2 = [0x06, 0x00] := by
  decide +kernel

/-- 01 R10, R12: ABANDON with one GATHERING buffer and no view completes at its taking. -/
theorem test_retire_abandon : (resultOf (after (.retire 0 0x00) gathS)).take 5 = [0x00, 3, 1, 0, 0] := by decide +kernel

/-- 01 R10: CLOSE closes the buffer, and the drain waits for its commit. -/
theorem test_retire_close : (after (.retire 0 0x01) gathS).link.state = .executing (.retire 0 0 0 0) := by decide +kernel

/-- 01 R11, R12: the commit completion that frees the last buffer completes the drain. -/
theorem test_drain_complete :
    (resultOf (after (.drainComplete (.answer 7 (.okay 0))) (linked (region0 writingS .draining) (.executing (.retire 0 2 0 1))))).take 5
      = [0x00, 3, 2, 1, 1] := by decide +kernel

/-- 08 R157: the EMPTY values. -/
theorem test_read_region_empty : (resultOf (after (.readRegion 15) base)).take 24 =
    [0x00, 22] ++ List.replicate 15 0x00 ++ [0xFF] ++ List.replicate 6 0x00 := by decide +kernel

/-- 01 R14: one watch of region 0 goes to UNUSED. -/
theorem test_clear_region : (resultOf (after (.clearRegion 0) (watched (region0 base .defined)))).take 3 = [0x00, 1, 1] := by
  decide +kernel

/-- 08 R158: one COMMITTING buffer with 4 bytes, U1's view. -/
theorem test_read_record : (resultOf (after (.readRecord 0 0) { writingS with views := heldS.views })).take 14 =
    [0x00, 12, 0x00, 0x00, 0x00, 1, 0x03, 0x00, 4, 0, 0x00, 0, 1, 0] := by decide +kernel

/-- 01 R20. -/
theorem test_clear_torn : (resultOf (after (.clearTorn 0 0) (base.setEntry 0 0 ⟨9, .torn⟩))).take 3 = [0x00, 1, 0x01] ∧
    (after (.clearTorn 0 0) (base.setEntry 0 0 ⟨9, .torn⟩)).entry 0 0 = ⟨9, .clean⟩ := by decide +kernel

/-- 07 R124: ANY record; the data is the state before. -/
theorem test_set_watch : (resultOf (after (.setWatch ⟨7, 0, 0xFFFF, 3, 0, 0, 0x02, 0x01⟩) base)).take 3 = [0x00, 1, 0x00] ∧
    (cell (after (.setWatch ⟨7, 0, 0xFFFF, 3, 0, 0, 0x02, 0x01⟩) base).events.watches 7).record = none := by decide +kernel

/-- 07 R126. -/
theorem test_clear_watch : (resultOf (after (.clearWatch 2) (watched base))).take 3 = [0x00, 1, 0x01] := by decide +kernel

/-- 08 R159. -/
theorem test_read_watch : (resultOf (after (.readWatch 2) (watched base))).take 17 =
    [0x00, 15, 0x01, 0, 0x00, 0x00, 0, 0x00, 0x00, 0x00, 0xFF, 0x00, 0x00, 0x00, 0x22, 0x02, 0x00] := by decide +kernel

/-- 07 R132, 08 R160: the lost count, one event, its fourteen bytes; the line falls. -/
theorem test_read_events : (resultOf (after (.readEvents 8) queuedS)).take 18 =
    [0x00, 16, 2, 1, 5, 0x08, 1, 0x01, 0x00, 0x00, 0x00, 0x09, 0x00, 0x00, 0x00, 0x00, 0x00, 0x4D] ∧
    (after (.readEvents 8) queuedS).events.attention = false := by decide +kernel

/-- 08 R159: bit 9 of the attention mask. -/
theorem test_set_event_masks : (resultOf (after (.setEventMasks 0xFF 0x0200) base)).take 2 = [0x05, 0x00] ∧
    (after (.setEventMasks 0xFF 0x01FF) base).events.attentionMask = 0x1FF := by decide +kernel

/-- 02 R40, R41: one GATHERING buffer, no view. -/
theorem test_flush_port : (resultOf (after (.flushPort 0x00) gathS)).take 4 = [0x00, 2, 1, 0] := by decide +kernel

/-- 02 R41: the command waits for a capture it cancelled while READING, to its answer. -/
theorem test_flush_port_complete : (after (.flushPort 0x01) readingS).link.state = .executing (.flushPort 0 1 true) ∧
    (resultOf (after (.flushPortComplete (.answer 9 .fault)) (after (.flushPort 0x01) readingS))).take 4 = [0x00, 2, 0, 1] := by
  decide +kernel

/-- 08 R152, R161: a commit in flight holds RESTART in EXECUTING. -/
theorem test_restart : (after .restart writingS).link.state = .executing (.restart 0 0 0 1 true false) := by decide +kernel

/-- 08 R153, 04 R83: its completion completes RESTART. -/
theorem test_restart_complete :
    (resultOf (after (.restartComplete (.answer 7 (.okay 0))) (after .restart writingS))).take 6 = [0x00, 4, 0, 0, 0, 1] := by
  decide +kernel

/-! ### Laws of the small states, for the witnesses below -/

theorem legal_d0 : d0.Legal :=
  ⟨by decide, by decide, by decide, by decide, by decide, by decide, by decide, by decide, fun k e => by
    have h : (1 : Nat) = k := Option.some.inj e
    subst h; decide⟩

theorem legal_d1 : d1.Legal :=
  ⟨by decide, by decide, by decide, by decide, by decide, by decide, by decide, by decide, fun k e => by
    have h : (none : Option Nat) = some k := e
    cases h⟩

/-- Region 0 ACTIVE and region 1 DEFINED, both legal, the rest EMPTY, and no long command: the region table keeps its laws. -/
theorem regions_of (s : State) (link : ∀ e, s.link.state ≠ .executing e)
    (blank : ∀ r, (s.region r).state = .empty → s.definition r = .emptyValues)
    (two : ∀ r, (s.region r).state ≠ .empty → r = 0 ∨ r = 1) (legal0 : (s.definition 0).Legal) (legal1 : (s.definition 1).Legal)
    (one : ∀ r, (s.region r).state.owning = true → r = 0) : s.RegionsLawful where
  blank := blank
  legal := fun r h => by
    obtain rfl | rfl := two r h
    · exact legal0
    · exact legal1
  apart := fun q r h hq hr => absurd ((one q hq).trans (one r hr).symm) h
  activating := fun _ _ h => absurd h (link _)
  draining := fun _ _ _ _ h => absurd h (link _)

theorem regions_base : base.RegionsLawful :=
  regions_of base (fun _ h => by cases h) (by decide +kernel) (by decide +kernel) legal_d0 legal_d1
    (by decide +kernel)

/-- The same table under another state of the other blocks. -/
theorem regions_gath : gathS.RegionsLawful :=
  ⟨regions_base.blank, regions_base.legal, regions_base.apart, regions_base.activating, regions_base.draining⟩

theorem regions_hold : holdS.RegionsLawful :=
  ⟨regions_base.blank, regions_base.legal, regions_base.apart, regions_base.activating, regions_base.draining⟩

theorem regions_gathClose : gathCloseS.RegionsLawful :=
  regions_of gathCloseS (fun _ h => by cases h) (by decide +kernel) (by decide +kernel)
    ⟨legal_d0.aligned, legal_d0.words, legal_d0.count, legal_d0.versions, legal_d0.span, legal_d0.reader, legal_d0.close,
      legal_d0.release, legal_d0.version⟩ legal_d1 (by decide +kernel)

theorem regions_waiting : waitingS.RegionsLawful :=
  ⟨regions_base.blank, regions_base.legal, regions_base.apart, regions_base.activating, regions_base.draining⟩

theorem pool_base : base.PoolLawful where
  gathering_iff := fun p => by cases p <;> decide +kernel
  gathering_nodup := fun p => by cases p <;> decide +kernel
  gathering_le := fun p => by cases p <;> decide +kernel
  close_iff := by decide +kernel
  close_nodup := by decide +kernel
  engine_iff := by decide +kernel

theorem pool_gath : gathS.PoolLawful where
  gathering_iff := fun p => by cases p <;> decide +kernel
  gathering_nodup := fun p => by cases p <;> decide +kernel
  gathering_le := fun p => by cases p <;> decide +kernel
  close_iff := by decide +kernel
  close_nodup := by decide +kernel
  engine_iff := by decide +kernel

theorem pool_full : (fullWith d0).PoolLawful where
  gathering_iff := fun p => by cases p <;> decide +kernel
  gathering_nodup := fun p => by cases p <;> decide +kernel
  gathering_le := fun p => by cases p <;> decide +kernel
  close_iff := by decide +kernel
  close_nodup := by decide +kernel
  engine_iff := by decide +kernel

theorem pool_four : (fourWith d0).PoolLawful where
  gathering_iff := fun p => by cases p <;> decide +kernel
  gathering_nodup := fun p => by cases p <;> decide +kernel
  gathering_le := fun p => by cases p <;> decide +kernel
  close_iff := by decide +kernel
  close_nodup := by decide +kernel
  engine_iff := by decide +kernel

theorem pool_writing : writingS.PoolLawful where
  gathering_iff := fun p => by cases p <;> decide +kernel
  gathering_nodup := fun p => by cases p <;> decide +kernel
  gathering_le := fun p => by cases p <;> decide +kernel
  close_iff := by decide +kernel
  close_nodup := by decide +kernel
  engine_iff := by decide +kernel

theorem pool_freeing_0 : (freeingS 0).PoolLawful where
  gathering_iff := fun p => by cases p <;> decide +kernel
  gathering_nodup := fun p => by cases p <;> decide +kernel
  gathering_le := fun p => by cases p <;> decide +kernel
  close_iff := by decide +kernel
  close_nodup := by decide +kernel
  engine_iff := by decide +kernel

theorem pool_freeing (k : Nat) : (freeingS k).PoolLawful :=
  ⟨pool_freeing_0.gathering_iff, pool_freeing_0.gathering_nodup, pool_freeing_0.gathering_le, pool_freeing_0.close_iff,
    pool_freeing_0.close_nodup, pool_freeing_0.engine_iff⟩

theorem pool_waiting : waitingS.PoolLawful :=
  ⟨pool_base.gathering_iff, pool_base.gathering_nodup, pool_base.gathering_le, pool_base.close_iff, pool_base.close_nodup,
    pool_base.engine_iff⟩

theorem waits_full : (fullWith d0).WaitsLawful where
  closed := fun _ h => by cases h
  nodup := fun _ h => by cases h
  count := by decide +kernel

theorem owned_gath : gathS.UpdatesOwned where
  buffers := by decide +kernel
  holds := fun _ h => by cases h

theorem owned_waiting : waitingS.UpdatesOwned := ⟨by decide +kernel, fun _ h => by cases h⟩

theorem owned_hold : holdS.UpdatesOwned := ⟨by decide +kernel, by decide +kernel⟩

theorem one_hold : holdS.OneUpdatePerRecord := ⟨by decide +kernel, by decide +kernel⟩

theorem pool_hold : holdS.PoolLawful :=
  ⟨pool_full.gathering_iff, pool_full.gathering_nodup, pool_full.gathering_le, pool_full.close_iff, pool_full.close_nodup,
    pool_full.engine_iff⟩

theorem ports_hold : holdS.PortsLawful where
  fit := fun p => by cases p <;> decide +kernel
  idle := fun p => by cases p <;> decide +kernel
  ports := by decide +kernel
  piece := fun h m => by
    have e : h = hold0 := by simpa [holdS] using m
    subst e
    exact ⟨.write 0x100 [⟨0x33, 0xF⟩], [], by decide +kernel, by decide +kernel, by decide +kernel, by decide +kernel⟩

/-- A part with no held write, no queue above eight and nothing in service on an empty queue keeps the ports' law. -/
theorem ports_of (s : State) (holds : s.pool.holds = []) (fit : ∀ p, (s.port p).queue.length ≤ 8)
    (idle : ∀ p, (s.port p).queue = [] → (s.port p).service = .fresh) : s.PortsLawful :=
  ⟨fit, idle, by rw [holds]; exact List.nodup_nil, fun h m => by rw [holds] at m; cases m⟩

theorem ports_gath : gathS.PortsLawful :=
  ports_of gathS rfl (fun p => by cases p <;> decide +kernel) (fun p => by cases p <;> decide +kernel)

theorem ports_reading : readingS.PortsLawful :=
  ports_of readingS rfl (fun p => by cases p <;> decide +kernel) (fun p => by cases p <;> decide +kernel)

theorem ports_freeing : (freeingS 0).PortsLawful ∧ (freeingS 3).PortsLawful :=
  ⟨⟨fun p => by cases p <;> decide +kernel, fun p => by cases p <;> decide +kernel, by decide +kernel, fun h m => by
      have e : h = { hold0 with spot := ⟨0, 0, 0⟩ } := by simpa [freeingS] using m
      subst e
      exact ⟨.write 0x100 [⟨0x33, 0xF⟩], [], by decide +kernel, by decide +kernel, by decide +kernel, by decide +kernel⟩⟩,
    ⟨fun p => by cases p <;> decide +kernel, fun p => by cases p <;> decide +kernel, by decide +kernel, fun h m => by
      have e : h = { hold0 with spot := ⟨0, 0, 3⟩ } := by simpa [freeingS] using m
      subst e
      exact ⟨.write 0x10C [⟨0x33, 0xF⟩], [], by decide +kernel, by decide +kernel, by decide +kernel, by decide +kernel⟩⟩⟩

theorem views_held : heldS.ViewsLawful where
  use_iff := fun p => by cases p <;> decide +kernel
  use_nodup := fun p => by cases p <;> decide +kernel
  unique := fun p => by cases p <;> decide +kernel
  fills := fun _ h => by cases h
  capturing := fun p => by cases p <;> decide +kernel
  distinct := List.Pairwise.nil

theorem views_gath : gathS.ViewsLawful where
  use_iff := fun p => by cases p <;> decide +kernel
  use_nodup := fun p => by cases p <;> decide +kernel
  unique := fun p => by cases p <;> decide +kernel
  fills := fun _ h => by cases h
  capturing := fun p => by cases p <;> decide +kernel
  distinct := List.Pairwise.nil

theorem views_covered : coveredS.ViewsLawful where
  use_iff := fun p => by cases p <;> decide +kernel
  use_nodup := fun p => by cases p <;> decide +kernel
  unique := fun p => by cases p <;> decide +kernel
  fills := fun _ h => by cases h
  capturing := fun p => by cases p <;> decide +kernel
  distinct := List.Pairwise.nil

theorem views_release3 : release3S.ViewsLawful where
  use_iff := fun p => by cases p <;> decide +kernel
  use_nodup := fun p => by cases p <;> decide +kernel
  unique := fun p => by cases p <;> decide +kernel
  fills := by decide +kernel
  capturing := fun p => by cases p <;> decide +kernel
  distinct := List.pairwise_singleton _ _

theorem views_awaiting : awaitingS.ViewsLawful where
  use_iff := fun p => by cases p <;> decide +kernel
  use_nodup := fun p => by cases p <;> decide +kernel
  unique := fun p => by cases p <;> decide +kernel
  fills := by decide +kernel
  capturing := fun p => by cases p <;> decide +kernel
  distinct := List.Pairwise.imp (fun {c d} h p v ⟨a, b⟩ => h (by simp [Capture.fills] at a b; rw [a.2, b.2]))
    (by decide +kernel : awaitingS.captures.Pairwise fun c d => c.view ≠ d.view)

theorem views_base : base.ViewsLawful where
  use_iff := fun p => by cases p <;> decide +kernel
  use_nodup := fun p => by cases p <;> decide +kernel
  unique := fun p => by cases p <;> decide +kernel
  fills := fun _ h => by cases h
  capturing := fun p => by cases p <;> decide +kernel
  distinct := List.Pairwise.nil

theorem views_reading : readingS.ViewsLawful where
  use_iff := fun p => by cases p <;> decide +kernel
  use_nodup := fun p => by cases p <;> decide +kernel
  unique := fun p => by cases p <;> decide +kernel
  fills := by decide +kernel
  capturing := fun p => by cases p <;> decide +kernel
  distinct := List.pairwise_singleton _ _

theorem views_waiting : waitingS.ViewsLawful :=
  ⟨views_reading.use_iff, views_reading.use_nodup, views_reading.unique, views_reading.fills, views_reading.capturing,
    views_reading.distinct⟩

theorem rest_base : base.AtRest := ⟨by decide +kernel, rfl⟩
theorem rest_gath : gathS.AtRest := ⟨by decide +kernel, rfl⟩
theorem rest_full (d : Definition) : (fullWith d).AtRest := ⟨rfl, rfl⟩
theorem rest_four (d : Definition) : (fourWith d).AtRest := ⟨rfl, rfl⟩
theorem rest_writing : writingS.AtRest := ⟨by decide +kernel, rfl⟩
theorem rest_held : heldS.AtRest := ⟨by decide +kernel, rfl⟩
theorem rest_reading : readingS.AtRest := ⟨by decide +kernel, rfl⟩
theorem rest_waiting : waitingS.AtRest := ⟨by decide +kernel, rfl⟩
theorem rest_plain : plainS.AtRest := ⟨by decide +kernel, rfl⟩
theorem rest_own : ownS.AtRest := ⟨by decide +kernel, rfl⟩
theorem rest_hold : holdS.AtRest := ⟨by decide +kernel, rfl⟩
theorem rest_watched : (watched base).AtRest := ⟨by decide +kernel, rfl⟩
theorem rest_queued : queuedS.AtRest := ⟨by decide +kernel, rfl⟩

theorem rest_gathClose : gathCloseS.AtRest := ⟨by decide +kernel, rfl⟩
theorem rest_covered : coveredS.AtRest := ⟨by decide +kernel, rfl⟩
theorem rest_awaiting : awaitingS.AtRest := ⟨by decide +kernel, rfl⟩
theorem rest_freeing : (freeingS 0).AtRest ∧ (freeingS 3).AtRest := ⟨⟨by decide +kernel, rfl⟩, ⟨by decide +kernel, rfl⟩⟩
theorem rest_twoPiece (r : Request) (m : MemRequest) : (twoPieceS r m).AtRest := ⟨rfl, rfl⟩

/-- The commit in flight of `writingS` and `freeingS` ends by its last answer, and by the timeout. -/
theorem ends_by_answer (s : State) (a : MemAnswer) : s.EndsBy tr0 (.memoryAnswer tr0.tag a) (.answer tr0.tag a)
    (fun as => answerFirst as (recorded tr0.request a)) := .inl ⟨a, rfl, rfl, rfl⟩

theorem ends_by_timeout (s : State) (tr : Transaction) (h : (s.timebase - tr.grantTime).toNat = 64) :
    s.EndsBy tr .memoryTimeout .timeout closeUnanswered := .inr ⟨rfl, rfl, h, closeUnanswered_eq⟩

theorem no_due_base : ∀ x, ¬ base.Due x
  | .hold _ => fun ⟨_, m, _⟩ => by cases m
  | .update b => by unfold State.Due; revert b; decide +kernel
  | .view p v => by unfold State.Due; cases p <;> revert v <;> decide +kernel
  | .memory => fun ⟨_, h, _⟩ => by cases h


theorem ready_base : base.linkReady := ⟨rfl, rfl, rfl⟩
theorem ready_gath : gathS.linkReady := ⟨rfl, rfl, rfl⟩
theorem ready_reading : readingS.linkReady := ⟨rfl, rfl, rfl⟩
theorem ready_writing : writingS.linkReady := ⟨rfl, rfl, rfl⟩

/-! ### Witnesses: states and operands that meet the hypotheses of each statement, clause by clause -/

/-- Three GATHERING buffers of U0, of records 0 to 2. -/
def threeS : State :=
  { fourWith d0 with pool := { (fourWith d0).pool with
      buffers := put (fourWith d0).pool.buffers 3 .initial, gathering := ⟨[0, 1, 2], [], []⟩ } }

/-- The pool full, buffer 15 GATHERING record 2, the rest CLOSED. -/
def fullOneS : State :=
  { fullWith d0 with pool := { (fullWith d0).pool with
      buffers := put (fullWith d0).pool.buffers 15 (buf 2 .gathering), gathering := ⟨[15], [], []⟩,
      closeOrder := allBuffers.dropLast } }

/-- U1 with its four views HELD, of records 1 to 4, view 2 least recently used. -/
def fourHeldS : State :=
  { base with views :=
      { u0 := .initial
        u1 := ⟨put (put (put (put PortViews.initial.views 0 { viewOf0 .held with record := 1 }) 1 { viewOf0 .held with record := 2 }) 2
          { viewOf0 .held with record := 3 }) 3 { viewOf0 .held with record := 4 }, [2, 0, 1, 3]⟩, u2 := .initial } }

/-- U2 with n plain requests queued, the head outstanding. -/
def queueS (n : Nat) : State :=
  { plainS with ports := { plainS.ports with u2 := { plainS.ports.u2 with queue := List.replicate n (.read 0x1000 2) } } }

/-- A commit of three words, one answered. -/
def jobR : CommitJob := ⟨0, 0, [⟨0x11, 0xF⟩, ⟨1, 0xF⟩, ⟨0, 0⟩], [.okay 0, .unanswered, .unanswered]⟩

/-- The transaction of `jobR`. -/
def trR : Transaction := ⟨.commit, 7, .write 0x100 jobR.words, 936, jobR.answers, false⟩

/-- The state of `jobR`. -/
def recS : State :=
  { writingS with engine := .writing jobR, mem := { writingS.mem with outstanding := some trR } }

/-- Every requester's request pending, the ring pointer at the capture engine. -/
def ringS : State :=
  { base with mem := { MemPort.initial with ring := .capture, commit := some (.read 0x100 16) } }

/-- A request that a port serves at once. -/
theorem serves_base : base.ServesAtOnce .u2 (.read 0xFFFFFFFC 1) :=
  ⟨by decide +kernel, by decide +kernel, by decide +kernel, by decide +kernel, by decide +kernel⟩

theorem witness_StepRunsTheFrontCommand :
    ({ base with pending := [.memoryGrant, .commitTake] } : State).pending = .memoryGrant :: [.commitTake] ∧ base.pending = [] := ⟨rfl, rfl⟩

theorem witness_OnlyItsOwnCommandMovesEachCounter :
    (exec .timebaseTick base = .next (after .timebaseTick base) ∧ (after .timebaseTick base).timebase ≠ base.timebase) ∧
    (exec .hardReset base = .next (after .hardReset base) ∧ (after .hardReset base).timebase ≠ base.timebase) ∧
    (exec .memoryGrant ringS = .next (after .memoryGrant ringS) ∧ (after .memoryGrant ringS).mem.issued ≠ ringS.mem.issued) :=
  ⟨⟨rfl, by decide +kernel⟩, ⟨rfl, by decide +kernel⟩, ⟨rfl, by decide +kernel⟩⟩

theorem witness_HardResetHoldsThePartUntilDeassertion :
    (after .hardReset base).hardResetLine = true ∧ base.hardResetLine = false ∧
    (let s := after (.hardResetDeassert true) (after .hardReset base)
     s.hardResetLine = false ∧ s.link.frame = some .noFrame) := ⟨rfl, rfl, rfl, rfl⟩

theorem witness_PortResetDropsThePortsWork :
    (gathS.PoolLawful ∧ gathS.AtRest ∧ (∀ h ∈ gathS.pool.holds, h.port = .u0) ∧ (gathS.buffer 0).state = .gathering ∧
      (gathS.buffer 0).writer = .u0) ∧ (writingS.PoolLawful ∧ (writingS.buffer 0).state = .committing) ∧
    ((queueS 7).hardResetLine = false ∧ ((queueS 7).port .u2).queue.length < 8) :=
  ⟨⟨pool_gath, rest_gath, fun _ h => (by cases h), by decide +kernel⟩, ⟨pool_writing, by decide +kernel⟩, by decide +kernel⟩

theorem witness_TheReferenceTicksAndFills :
    (base.hardResetLine = false ∧ (∀ x, ¬ base.Due x) ∧ ∀ r n, base.link.state ≠ .executing (.activate r n)) ∧
    (let s := linked (base.setRegionState 1 .activating) (.executing (.activate 1 0))
     s.hardResetLine = false ∧ s.link.state = .executing (.activate 1 0) ∧ 0 + 1 < (s.definition 1).recordCount) ∧
    (let s := linked (base.setRegionState 1 .activating) (.executing (.activate 1 1))
     s.hardResetLine = false ∧ s.link.state = .executing (.activate 1 1) ∧ 1 + 1 = (s.definition 1).recordCount) :=
  ⟨⟨rfl, no_due_base, fun _ _ h => by cases h⟩, by decide +kernel, by decide +kernel⟩

theorem only_due_gath : ∀ y, gathS.Due y → y = .update 0
  | .hold _ => fun ⟨_, m, _⟩ => by cases m
  | .update b => by unfold State.Due; revert b; decide +kernel
  | .view p v => by unfold State.Due; cases p <;> revert v <;> decide +kernel
  | .memory => fun ⟨_, h, _⟩ => by cases h

theorem no_due_expired : ∀ y, ¬ (after (.updateExpiry 0) gathS).Due y
  | .hold _ => fun ⟨h, m, _⟩ => by
    have e : (after (.updateExpiry 0) gathS).pool.holds = [] := by decide +kernel
    rw [e] at m; cases m
  | .update b => by unfold State.Due; revert b; decide +kernel
  | .view p v => by unfold State.Due; cases p <;> revert v <;> decide +kernel
  | .memory => fun ⟨_, h, _⟩ => by
    have e : (after (.updateExpiry 0) gathS).mem.outstanding = none := by decide +kernel
    rw [e] at h; cases h

/-- The tick's clause on a timer left due: `gathS` has one, its buffer's expiry, and the expired state none. -/
theorem witness_TheReferenceTicksAndFills_due :
    gathS.hardResetLine = false ∧ gathS.PortsLawful ∧ gathS.Due (.update 0) ∧ (∀ y, gathS.Due y → y = .update 0) ∧
    exec (rowOfTimer (.update 0)) gathS = .next (after (.updateExpiry 0) gathS) ∧ ∀ y, ¬ (after (.updateExpiry 0) gathS).Due y :=
  ⟨rfl, ports_gath, by unfold State.Due; decide +kernel, only_due_gath, rfl, no_due_expired⟩

theorem witness_HoldLimitRefusesTheHeldWrite :
    (holdS.AtRest ∧ holdS.PortsLawful ∧ hold0 ∈ holdS.pool.holds ∧ hold0.port = .u0 ∧
      (holdS.timebase - hold0.holdTime).toNat = 500 ∧ holdS.events.queueMask.getLsbD 4 = true ∧ holdS.events.queue.length < 32 ∧
      (holdS.port .u0).queue = [.write 0x100 [⟨0x33, 0xF⟩]] ∧
      (holdS.port .u0).service.next + hold0.words.length = (Request.write 0x100 [⟨0x33, 0xF⟩]).beats) ∧
    ((holdS.setTimebase 999).timebase - hold0.holdTime).toNat ≠ 500 ∧ ((holdS.setTimebase 1001).timebase - hold0.holdTime).toNat ≠ 500 ∧
    (∀ h ∈ holdS.pool.holds, h.port ≠ .u1) :=
  ⟨⟨rest_hold, ports_hold, by decide +kernel⟩, by decide +kernel, by decide +kernel, by decide +kernel⟩

theorem witness_ExpiryEndsTheUpdateOrTheView :
    (gathS.AtRest ∧ gathS.RegionsLawful ∧ gathS.UpdatesOwned ∧ gathS.pool.holds = [] ∧ (gathS.buffer 0).state = .gathering ∧
      (gathS.definition 0).updateLimit ≠ 0 ∧ (gathS.timebase - (gathS.buffer 0).openingTime).toNat = (gathS.definition 0).updateLimit ∧
      (gathS.definition 0).action = .discard) ∧
    (gathCloseS.AtRest ∧ gathCloseS.RegionsLawful ∧ gathCloseS.UpdatesOwned ∧ gathCloseS.pool.holds = [] ∧
      (gathCloseS.timebase - (gathCloseS.buffer 0).openingTime).toNat = (gathCloseS.definition 0).updateLimit ∧
      (gathCloseS.definition 0).action = .close) ∧
    ((gathS.setTimebase 1001).timebase - (gathS.buffer 0).openingTime).toNat ≠ (gathS.definition 0).updateLimit ∧
    (heldS.AtRest ∧ heldS.ViewsLawful ∧ (heldS.port .u1).service.piece = none ∧ (heldS.view .u1 0).state = .held ∧
      (heldS.definition 0).viewLifetime ≠ 0 ∧ (heldS.timebase - (heldS.view .u1 0).completeTime).toNat = (heldS.definition 0).viewLifetime) ∧
    ((heldS.setTimebase 1001).timebase - (heldS.view .u1 0).completeTime).toNat ≠ (heldS.definition 0).viewLifetime :=
  ⟨⟨rest_gath, regions_gath, owned_gath, by decide +kernel⟩,
    ⟨rest_gathClose, regions_gathClose, ⟨by decide +kernel, fun _ h => by cases h⟩, by decide +kernel⟩, by decide +kernel,
    ⟨rest_held, views_held, by decide +kernel⟩, by decide +kernel⟩

theorem witness_RequestsQueueInOrder :
    ((queueS 8).AtRest ∧ ((queueS 8).port .u2).queue.length ≥ 8) ∧
    ((queueS 7).AtRest ∧ (queueS 7).hardResetLine = false ∧ ((queueS 7).port .u2).resetLine = false ∧
      ((queueS 7).port .u2).queue = .read 0x1000 2 :: List.replicate 6 (.read 0x1000 2) ∧ ((queueS 7).port .u2).queue.length < 8 ∧
      (Request.read 0 8).wellFormed = true) ∧
    (base.AtRest ∧ base.canTake .u0 = true ∧ (base.port .u0).queue = [] ∧ (base.port .u0).service = .fresh ∧
      (Request.read 0xFFFFFFFC 2).wellFormed = true ∧
      0xFFFFFFFC < (Request.read 0xFFFFFFFC 2).address.toNat + 4 * ((Request.read 0xFFFFFFFC 2).beats - 1)) :=
  ⟨⟨⟨by decide +kernel, rfl⟩, by decide +kernel⟩, ⟨⟨by decide +kernel, rfl⟩, by decide +kernel⟩, rest_base, by decide +kernel⟩

theorem witness_PlainPiecesBecomeOneTransaction :
    (base.AtRest ∧ base.ServesAtOnce .u2 (.read 0xFFFFFFFC 1) ∧ base.PlainAll (.read 0xFFFFFFFC 1)) ∧
    (base.ServesAtOnce .u2 (.read 0x2F0 4) ∧ base.Within (.read 0x2F0 4) ⟨0, 31, 0⟩ ∧ (base.definition 0).writer ≠ .u2 ∧
      (base.definition 0).readers.get .u2 = false) ∧
    (base.ServesAtOnce .u0 (.write 0xFC [⟨1, 1⟩, ⟨2, 2⟩]) ∧ 0 < 1 ∧ 1 < (Request.write 0xFC [⟨1, 1⟩, ⟨2, 2⟩]).beats ∧
      (∀ k, k < 1 → base.spotOf (beatAddress (.write 0xFC [⟨1, 1⟩, ⟨2, 2⟩]) k) = none) ∧
      base.spotOf (beatAddress (.write 0xFC [⟨1, 1⟩, ⟨2, 2⟩]) 1) ≠ none) ∧
    (base.ServesAtOnce .u2 (.read 0x10C 2) ∧ (∀ k, k < 1 → base.spotOf (beatAddress (.read 0x10C 2) k) = some ⟨0, 0, 3 + k⟩) ∧
      base.spotOf (beatAddress (.read 0x10C 2) 1) = some ⟨0, 1, 0⟩ ∧ ¬ sameRecord ⟨0, 0, 3⟩ ⟨0, 1, 0⟩) :=
  ⟨⟨rest_base, serves_base, by unfold State.PlainAll; decide +kernel⟩,
    ⟨⟨by decide +kernel, by decide +kernel, by decide +kernel, by decide +kernel, by decide +kernel⟩,
    by unfold State.Within; decide +kernel, by decide +kernel, by decide +kernel⟩,
    ⟨⟨by decide +kernel, by decide +kernel, by decide +kernel, by decide +kernel, by decide +kernel⟩, by decide +kernel⟩,
    ⟨⟨by decide +kernel, by decide +kernel, by decide +kernel, by decide +kernel, by decide +kernel⟩, by unfold sameRecord; decide +kernel⟩⟩

theorem witness_ForeignWritesAreRefused :
    (base.AtRest ∧ base.ServesAtOnce .u1 (.write 0x100 [⟨1, 0⟩]) ∧ base.Within (.write 0x100 [⟨1, 0⟩]) ⟨0, 0, 0⟩ ∧
      (base.definition 0).writer ≠ .u1) ∧
    (base.ServesAtOnce .u1 (.write 0x10C [⟨1, 0⟩, ⟨2, 0xF⟩]) ∧ 0 < 1 ∧ 1 < [(⟨1, 0⟩ : WriteWord), ⟨2, 0xF⟩].length ∧
      (∀ k, k < 1 → base.spotOf (beatAddress (.write 0x10C [⟨1, 0⟩, ⟨2, 0xF⟩]) k) = some ⟨0, 0, 3 + k⟩) ∧
      base.RestWithin (.write 0x10C [⟨1, 0⟩, ⟨2, 0xF⟩]) 1 ⟨0, 1, 0⟩ ∧ ¬ sameRecord ⟨0, 0, 3⟩ ⟨0, 1, 0⟩) :=
  ⟨⟨rest_base, ⟨by decide +kernel, by decide +kernel, by decide +kernel, by decide +kernel, by decide +kernel⟩,
    by unfold State.Within; decide +kernel, by decide +kernel⟩,
    ⟨⟨by decide +kernel, by decide +kernel, by decide +kernel, by decide +kernel, by decide +kernel⟩, by decide +kernel, by decide +kernel, by decide +kernel,
    fun j h => by
      have h : 1 + j < 2 := h
      obtain rfl : j = 0 := by omega
      decide +kernel, by unfold sameRecord; decide +kernel⟩⟩

theorem witness_StagedBytesOverlayTheOlderOnes :
    (cell (buf 0 .closed).mask 0).getLsbD 3 = true ∧ (∀ c ∈ [Buffer.initial], (cell c.mask 0).getLsbD 3 = false) := by decide +kernel

theorem witness_WriterPiecesJoinOrOpenAnUpdate :
    (gathS.AtRest ∧ gathS.ServesAtOnce .u0 (.write 0x108 [⟨1, 8⟩]) ∧ gathS.Within (.write 0x108 [⟨1, 8⟩]) ⟨0, 0, 2⟩ ∧
      (gathS.definition 0).writer = .u0 ∧ (gathS.definition 0).versionWord ≠ some 2 ∧ (gathS.definition 0).closeOffset ≠ 2 ∧
      gathS.gatheringOf 0 0 = some 0) ∧
    (threeS.AtRest ∧ threeS.ServesAtOnce .u0 (.write 0x138 [⟨1, 8⟩]) ∧ threeS.Within (.write 0x138 [⟨1, 8⟩]) ⟨0, 3, 2⟩ ∧
      threeS.gatheringOf 0 3 = none ∧ threeS.freeBuffer = some 3 ∧ (threeS.pool.gathering.get .u0).length < 4) ∧
    (base.ServesAtOnce .u0 (.write 0x104 [⟨1, 0xF⟩]) ∧ base.Within (.write 0x104 [⟨1, 0xF⟩]) ⟨0, 0, 1⟩ ∧
      (base.definition 0).versionWord = some (1 + 0)) :=
  ⟨⟨rest_gath, ⟨by decide +kernel, by decide +kernel, by decide +kernel, by decide +kernel, by decide +kernel⟩,
      by unfold State.Within; decide +kernel, by decide +kernel⟩,
    ⟨⟨by decide +kernel, rfl⟩, ⟨by decide +kernel, by decide +kernel, by decide +kernel, by decide +kernel, by decide +kernel⟩,
      by unfold State.Within; decide +kernel, by decide +kernel⟩,
    ⟨by decide +kernel, by decide +kernel, by decide +kernel, by decide +kernel, by decide +kernel⟩,
    by unfold State.Within; decide +kernel, by decide +kernel⟩

theorem witness_TheCloseWordClosesTheUpdate :
    (gathS.AtRest ∧ gathS.PoolLawful ∧ gathS.pool.holds = [] ∧ gathS.ServesAtOnce .u0 (.write 0x10C [⟨1, 1⟩]) ∧
      gathS.Within (.write 0x10C [⟨1, 1⟩]) ⟨0, 0, 3⟩ ∧ (gathS.definition 0).writer = .u0 ∧ gathS.gatheringOf 0 0 = some 0 ∧
      (gathS.buffer 0).writer = .u0 ∧ (gathS.definition 0).closeOffset = 3 + 0 ∧ (gathS.definition 0).versionWord ≠ some (3 + 0)) ∧
    (base.AtRest ∧ base.PoolLawful ∧ base.pool.holds = [] ∧ base.ServesAtOnce .u0 (.write 0x10C [⟨1, 1⟩]) ∧
      base.Within (.write 0x10C [⟨1, 1⟩]) ⟨0, 0, 3⟩ ∧ base.gatheringOf 0 0 = none ∧ (base.buffer 0).state = .free ∧
      (∀ c, c < 0 → (base.buffer c).state ≠ .free) ∧ (base.pool.gathering.get .u0).length < 4) :=
  ⟨⟨rest_gath, pool_gath, by decide +kernel, ⟨by decide +kernel, by decide +kernel, by decide +kernel, by decide +kernel, by decide +kernel⟩,
    by unfold State.Within; decide +kernel, by decide +kernel⟩,
    ⟨rest_base, pool_base, by decide +kernel, ⟨by decide +kernel, by decide +kernel, by decide +kernel, by decide +kernel, by decide +kernel⟩,
    by unfold State.Within; decide +kernel, by decide +kernel⟩⟩

theorem witness_ExhaustionRefusesOrWritesThrough :
    (let s := fullWith { d0 with policy := .refuse }
     s.AtRest ∧ s.ServesAtOnce .u0 (.write 0x100 [⟨1, 1⟩]) ∧ s.Within (.write 0x100 [⟨1, 1⟩]) ⟨0, 0, 0⟩ ∧
      (s.definition 0).writer = .u0 ∧ s.gatheringOf 0 0 = none ∧ (∀ b, (s.buffer b).state ≠ .free) ∧ (s.definition 0).policy = .refuse) ∧
    (let s := fourWith { d0 with policy := .through }
     s.AtRest ∧ s.ServesAtOnce .u0 (.write 0x140 [⟨1, 1⟩]) ∧ s.Within (.write 0x140 [⟨1, 1⟩]) ⟨0, 4, 0⟩ ∧
      (s.definition 0).writer = .u0 ∧ s.gatheringOf 0 4 = none ∧ 4 ≤ (s.pool.gathering.get .u0).length ∧ (s.definition 0).policy = .through) :=
  ⟨⟨rest_full _, ⟨by decide +kernel, by decide +kernel, by decide +kernel, by decide +kernel, by decide +kernel⟩,
      by unfold State.Within; decide +kernel, by decide +kernel⟩,
    ⟨rest_four _, ⟨by decide +kernel, by decide +kernel, by decide +kernel, by decide +kernel, by decide +kernel⟩,
      by unfold State.Within; decide +kernel, by decide +kernel⟩⟩

theorem pool_fullOne : fullOneS.PoolLawful where
  gathering_iff := fun p => by cases p <;> decide +kernel
  gathering_nodup := fun p => by cases p <;> decide +kernel
  gathering_le := fun p => by cases p <;> decide +kernel
  close_iff := by decide +kernel
  close_nodup := by decide +kernel
  engine_iff := by decide +kernel

theorem witness_CloseOldestClosesEarlyAndHolds :
    (fullOneS.AtRest ∧ fullOneS.PoolLawful ∧ fullOneS.ServesAtOnce .u0 (.write 0x100 [⟨1, 1⟩]) ∧
      fullOneS.Within (.write 0x100 [⟨1, 1⟩]) ⟨0, 0, 0⟩ ∧ (fullOneS.definition 0).writer = .u0 ∧ fullOneS.gatheringOf 0 0 = none ∧
      (fullOneS.definition 0).policy = .closeOldest ∧ (∀ b, (fullOneS.buffer b).state ≠ .free) ∧
      fullOneS.pool.gathering.get .u0 = 15 :: []) ∧
    ((fullWith d0).PoolLawful ∧ (∀ b, ((fullWith d0).buffer b).state ≠ .free) ∧ (fullWith d0).pool.gathering.get .u0 = []) ∧
    ((fourWith d0).AtRest ∧ (fourWith d0).PoolLawful ∧ (fourWith d0).ServesAtOnce .u0 (.write 0x140 [⟨1, 1⟩]) ∧
      (fourWith d0).Within (.write 0x140 [⟨1, 1⟩]) ⟨0, 4, 0⟩ ∧ (fourWith d0).gatheringOf 0 4 = none ∧
      (fourWith d0).pool.gathering.get .u0 = 0 :: [1, 2, 3] ∧ (fourWith d0).freeBuffer = some 4 ∧ (fourWith d0).pool.holds = []) ∧
    ((fourWith d0).ServesAtOnce .u0 (.write 0x14C [⟨1, 1⟩]) ∧ (fourWith d0).Within (.write 0x14C [⟨1, 1⟩]) ⟨0, 4, 3⟩ ∧
      ((fourWith d0).definition 0).closeOffset = 3 + 0) :=
  ⟨⟨⟨by decide +kernel, rfl⟩, pool_fullOne, ⟨by decide +kernel, by decide +kernel, by decide +kernel, by decide +kernel, by decide +kernel⟩,
      by unfold State.Within; decide +kernel, by decide +kernel⟩,
    ⟨pool_full, by decide +kernel⟩,
    ⟨rest_four _, pool_four, ⟨by decide +kernel, by decide +kernel, by decide +kernel, by decide +kernel, by decide +kernel⟩,
      by unfold State.Within; decide +kernel, by decide +kernel⟩,
    ⟨⟨by decide +kernel, by decide +kernel, by decide +kernel, by decide +kernel, by decide +kernel⟩, by unfold State.Within; decide +kernel, by decide +kernel⟩⟩

/-- The clause on a held write that a commit lets open, its piece without and with the close word. -/
theorem witness_CloseOldestClosesEarlyAndHolds_opens :
    ((freeingS 0).AtRest ∧ (freeingS 0).PoolLawful ∧ (freeingS 0).PortsLawful ∧
      (freeingS 0).Ends .commit tr0 (answerFirst tr0.answers (recorded tr0.request .fault)) ∧ (freeingS 0).engine = .writing job0 ∧
      (∀ b, ((freeingS 0).buffer b).state ≠ .free) ∧ (freeingS 0).pool.holds = [] ++ hold0 :: [] ∧
      ((freeingS 0).pool.gathering.get hold0.port).length < 4 ∧ ((freeingS 0).port .u0).queue = [.write 0x100 [⟨0x33, 0xF⟩]] ∧
      ((freeingS 0).port .u0).service.next + hold0.words.length = (Request.write 0x100 [⟨0x33, 0xF⟩]).beats ∧
      (freeingS 0).closes hold0.spot hold0.words = false) ∧
    ((freeingS 3).AtRest ∧ (freeingS 3).PoolLawful ∧ (freeingS 3).PortsLawful ∧ ((freeingS 3).timebase - tr0.grantTime).toNat = 64 ∧
      (freeingS 3).Ends .commit tr0 (closeUnanswered tr0.answers) ∧
      (freeingS 3).closes ⟨0, 0, 3⟩ hold0.words = true) :=
  ⟨⟨rest_freeing.1, pool_freeing 0, ports_freeing.1, ⟨rfl, rfl, rfl, by decide +kernel⟩, by decide +kernel⟩,
    ⟨rest_freeing.2, pool_freeing 3, ports_freeing.2, by decide +kernel, ⟨rfl, rfl, rfl, by decide +kernel⟩, by decide +kernel⟩⟩

theorem witness_ReadOwnReadsWhatTheBuffersDoNotSupply :
    gathS.AtRest ∧ gathS.ServesAtOnce .u0 (.read 0x100 3) ∧ gathS.Within (.read 0x100 3) ⟨0, 0, 0⟩ ∧ (gathS.definition 0).writer = .u0 ∧
    (gathS.definition 0).versionWord = some 1 ∧
    (∀ k, (k < 3 ∧ (gathS.definition 0).versionWord ≠ some (0 + k) ∧ (overlay [gathS.buffer 0] (0 + k)).enables ≠ 0xF) ↔ k = 2) ∧
    (gathS.ServesAtOnce .u0 (.read 0x100 2) ∧ gathS.Within (.read 0x100 2) ⟨0, 0, 0⟩ ∧
      ∀ k, k < 2 → (gathS.definition 0).versionWord = some (0 + k) ∨ (overlay [gathS.buffer 0] (0 + k)).enables = 0xF) :=
  ⟨rest_gath, ⟨by decide +kernel, by decide +kernel, by decide +kernel, by decide +kernel, by decide +kernel⟩,
    by unfold State.Within; decide +kernel, by decide +kernel, by decide +kernel,
    fun k => ⟨fun h => by
        have : k = 0 ∨ k = 1 ∨ k = 2 := by omega
        obtain rfl | rfl | rfl := this
        · exact absurd h.2.2 (by decide +kernel)
        · exact absurd h.2.1 (by decide +kernel)
        · rfl, fun h => by subst h; decide +kernel⟩,
    ⟨by decide +kernel, by decide +kernel, by decide +kernel, by decide +kernel, by decide +kernel⟩,
    by unfold State.Within; decide +kernel, by decide +kernel⟩

theorem views_fourHeld : fourHeldS.ViewsLawful where
  use_iff := fun p => by cases p <;> decide +kernel
  use_nodup := fun p => by cases p <;> decide +kernel
  unique := fun p => by cases p <;> decide +kernel
  fills := fun _ h => by cases h
  capturing := fun p => by cases p <;> decide +kernel
  distinct := List.Pairwise.nil

theorem witness_AReadersFirstReadOpensAView :
    (base.AtRest ∧ base.ViewsLawful ∧ base.ServesAtOnce .u1 (.read 0x100 4) ∧ base.Within (.read 0x100 4) ⟨0, 0, 0⟩ ∧
      (base.definition 0).writer ≠ .u1 ∧ (base.definition 0).readers.get .u1 = true ∧ base.viewOf .u1 0 0 = none ∧
      (base.view .u1 0).state = .free ∧ ¬ FilledFor ((after (.requestTaken .u1 (.read 0x100 4)) base).view .u1 0) ⟨0, 0, 0⟩ 4) ∧
    (fourHeldS.AtRest ∧ fourHeldS.ViewsLawful ∧ fourHeldS.ServesAtOnce .u1 (.read 0x100 4) ∧ fourHeldS.viewOf .u1 0 0 = none ∧
      (∀ w, (fourHeldS.view .u1 w).state ≠ .free) ∧
      (fourHeldS.views.get .u1).useList.find? (fun w => (fourHeldS.view .u1 w).state = .held) = some 2) ∧
    (coveredS.AtRest ∧ coveredS.ViewsLawful ∧ coveredS.ServesAtOnce .u1 (.read 0x108 1) ∧ coveredS.Within (.read 0x108 1) ⟨0, 0, 2⟩ ∧
      coveredS.viewOf .u1 0 0 = none ∧ FilledFor ((after (.requestTaken .u1 (.read 0x108 1)) coveredS).view .u1 0) ⟨0, 0, 2⟩ 1 ∧
      coveredS.Releases ⟨0, 0, 2⟩ 1 ∧ ¬ coveredS.Releases ⟨0, 0, 3⟩ 1) ∧
    (let s := { awaitingS with ports := ⟨.initial, .initial, .initial⟩ }
     s.AtRest ∧ s.ServesAtOnce .u1 (.read 0x140 1) ∧ s.Within (.read 0x140 1) ⟨0, 4, 0⟩ ∧ s.viewOf .u1 0 4 = none ∧
      ∀ v, (s.view .u1 v).state = .capturing) :=
  ⟨⟨rest_base, views_base, ⟨by decide +kernel, by decide +kernel, by decide +kernel, by decide +kernel, by decide +kernel⟩,
      by unfold State.Within; decide +kernel, by unfold FilledFor; decide +kernel⟩,
    ⟨⟨by decide +kernel, rfl⟩, views_fourHeld, ⟨by decide +kernel, by decide +kernel, by decide +kernel, by decide +kernel, by decide +kernel⟩, by decide +kernel⟩,
    ⟨rest_covered, views_covered, ⟨by decide +kernel, by decide +kernel, by decide +kernel, by decide +kernel, by decide +kernel⟩, by unfold State.Within; decide +kernel, by decide +kernel, by unfold FilledFor; decide +kernel,
      by unfold State.Releases; decide +kernel, by unfold State.Releases; decide +kernel⟩,
    ⟨by decide +kernel, rfl⟩, ⟨by decide +kernel, by decide +kernel, by decide +kernel, by decide +kernel, by decide +kernel⟩, by unfold State.Within; decide +kernel, by decide +kernel⟩

theorem witness_AHeldViewAnswersItsPortsReads :
    heldS.AtRest ∧ heldS.ViewsLawful ∧ (heldS.ServesAtOnce .u1 (.read 0x108 1) ∧ heldS.Within (.read 0x108 1) ⟨0, 0, 2⟩ ∧
      (2 ≤ (heldS.definition 0).releaseOffset ∧ (heldS.definition 0).releaseOffset < 2 + 1)) ∧
    (heldS.ServesAtOnce .u1 (.read 0x10C 1) ∧ heldS.Within (.read 0x10C 1) ⟨0, 0, 3⟩ ∧ ¬ 3 ≤ (heldS.definition 0).releaseOffset) ∧
    (heldS.definition 0).writer ≠ .u1 ∧ (heldS.definition 0).readers.get .u1 = true ∧ heldS.viewOf .u1 0 0 = some 0 ∧
    (heldS.view .u1 0).state = .held ∧ (∀ k, k < 1 → cellD (heldS.view .u1 0).fill (2 + k) false = true) ∧
    (∀ k, k < 1 → cellD (heldS.view .u1 0).fill (3 + k) false = true) :=
  ⟨rest_held, views_held,
    ⟨⟨by decide +kernel, by decide +kernel, by decide +kernel, by decide +kernel, by decide +kernel⟩,
      by unfold State.Within; decide +kernel, by decide +kernel⟩,
    ⟨⟨by decide +kernel, by decide +kernel, by decide +kernel, by decide +kernel, by decide +kernel⟩,
      by unfold State.Within; decide +kernel, by decide +kernel⟩, by decide +kernel⟩

/-- The clauses on a CAPTURING view: a filled word that is no release word, one that is, and one not filled. -/
theorem witness_AHeldViewAnswersItsPortsReads_capturing :
    (let s := release3S
     s.AtRest ∧ s.ViewsLawful ∧ (s.definition 0).writer ≠ .u1 ∧ (s.definition 0).readers.get .u1 = true ∧ s.viewOf .u1 0 0 = some 0 ∧
      (s.view .u1 0).state = .capturing ∧
      (s.ServesAtOnce .u1 (.read 0x100 1) ∧ s.Within (.read 0x100 1) ⟨0, 0, 0⟩ ∧ FilledFor (s.view .u1 0) ⟨0, 0, 0⟩ 1 ∧
        ¬ s.Releases ⟨0, 0, 0⟩ 1) ∧
      (s.ServesAtOnce .u1 (.read 0x10C 1) ∧ s.Within (.read 0x10C 1) ⟨0, 0, 3⟩ ∧ FilledFor (s.view .u1 0) ⟨0, 0, 3⟩ 1 ∧
        s.Releases ⟨0, 0, 3⟩ 1) ∧
      (s.ServesAtOnce .u1 (.read 0x108 1) ∧ s.Within (.read 0x108 1) ⟨0, 0, 2⟩ ∧ ¬ FilledFor (s.view .u1 0) ⟨0, 0, 2⟩ 1)) :=
  ⟨⟨by decide +kernel, rfl⟩, views_release3, by decide +kernel, by decide +kernel, by decide +kernel, by decide +kernel,
    ⟨⟨by decide +kernel, by decide +kernel, by decide +kernel, by decide +kernel, by decide +kernel⟩, by unfold State.Within; decide +kernel, by unfold FilledFor; decide +kernel, by unfold State.Releases; decide +kernel⟩,
    ⟨⟨by decide +kernel, by decide +kernel, by decide +kernel, by decide +kernel, by decide +kernel⟩, by unfold State.Within; decide +kernel, by unfold FilledFor; decide +kernel, by unfold State.Releases; decide +kernel⟩,
    ⟨⟨by decide +kernel, by decide +kernel, by decide +kernel, by decide +kernel, by decide +kernel⟩, by unfold State.Within; decide +kernel, by unfold FilledFor; decide +kernel⟩⟩

theorem witness_GrantsFollowTheRing :
    (plainS.hardResetLine = false ∧ plainS.mem.outstanding ≠ none) ∧ (∀ q, base.mem.pendingOf q = none) ∧
    (ringS.hardResetLine = false ∧ ringS.mem.outstanding = none ∧
      ringFrom ringS.mem.ring = [.capture, .plain .u0, .plain .u1, .plain .u2] ++ .commit :: [] ∧
      (∀ x ∈ ([.capture, .plain .u0, .plain .u1, .plain .u2] : List Requester), ringS.mem.pendingOf x = none) ∧
      ringS.mem.pendingOf .commit = some (.read 0x100 16) ∧ exec .memoryGrant ringS = .next (after .memoryGrant ringS)) :=
  ⟨by decide +kernel, fun q => by cases q with | plain p => cases p <;> rfl | commit => rfl | capture => rfl,
    by decide +kernel, by decide +kernel, by decide +kernel, by decide +kernel, by decide +kernel, rfl⟩

theorem witness_AnswersAreRecordedInOrderOrDiscarded :
    (writingS.AtRest ∧ ∀ tr, writingS.mem.outstanding = some tr → tr.tag ≠ 8) ∧
    (recS.AtRest ∧ recS.mem.outstanding = some trR ∧ trR.answers = jobR.answers ∧
      jobR.answers = [.okay 0] ++ .unanswered :: [.unanswered] ∧ (∀ x ∈ [Answer.okay 0], x ≠ .unanswered) ∧
      Answer.unanswered ∈ [Answer.unanswered] ∧ recS.engine = .writing jobR) :=
  ⟨⟨rest_writing, fun tr h => by cases h; decide⟩, ⟨by decide +kernel, rfl⟩, by decide +kernel⟩

theorem witness_PlainTransactionsAnswerTheirPiece :
    plainS.AtRest ∧ plainS.Ends (.plain .u2) trPlain (answerFirst trPlain.answers (recorded trPlain.request .fault)) ∧
    plainS.Ends (.plain .u2) trPlain (closeUnanswered trPlain.answers) ∧ 64 = (plainS.timebase - trPlain.grantTime).toNat ∧
    (plainS.port .u2).service.piece = some ⟨2, none, .memory⟩ ∧ (plainS.port .u2).queue = .read 0x1000 2 :: [] ∧
    (plainS.port .u2).service.next + 2 = (Request.read 0x1000 2).beats :=
  ⟨rest_plain, ⟨rfl, rfl, rfl, by decide +kernel⟩, ⟨rfl, rfl, rfl, by decide +kernel⟩, by decide +kernel⟩

/-- The clauses on a request that goes on: a WRITE whose second word is foreign, and a READ whose second word lies in a record. -/
theorem witness_PlainTransactionsAnswerTheirPiece_goesOn :
    (let r : Request := .write 0xFC [⟨1, 1⟩, ⟨2, 2⟩]
     let tr : Transaction := ⟨.plain .u2, 3, .write 0xFC [⟨1, 1⟩], 936, [.unanswered], false⟩
     let s := twoPieceS r tr.request
     s.AtRest ∧ s.Ends (.plain .u2) tr (closeUnanswered tr.answers) ∧ (s.timebase - tr.grantTime).toNat = 64 ∧
      (s.port .u2).queue = [r] ∧ isRead r = false ∧ (s.port .u2).service.next + 1 < r.beats ∧
      r.address.toNat + 4 * (r.beats - 1) ≤ 0xFFFFFFFC ∧ s.RestWithin r 1 ⟨0, 0, 0⟩ ∧ (s.definition 0).writer ≠ .u2) ∧
    (let r : Request := .read 0xFC 2
     let tr : Transaction := ⟨.plain .u2, 3, .read 0xFC 1, 936, [.unanswered], false⟩
     let s := twoPieceS r tr.request
     s.AtRest ∧ s.Ends (.plain .u2) tr (answerFirst tr.answers (recorded tr.request (.okay 5))) ∧ isRead r = true ∧
      s.RestWithin r 1 ⟨0, 0, 0⟩ ∧ (s.definition 0).readers.get .u2 = false) :=
  ⟨⟨rest_twoPiece _ _, ⟨rfl, rfl, rfl, by decide +kernel⟩, by decide +kernel, by decide +kernel, by decide +kernel, by decide +kernel,
      by decide +kernel, fun j h => by
        have h : 1 + j < 2 := h
        obtain rfl : j = 0 := by omega
        decide +kernel, by decide +kernel⟩,
    ⟨rest_twoPiece _ _, ⟨rfl, rfl, rfl, by decide +kernel⟩, by decide +kernel, fun j h => by
        have h : 1 + j < 2 := h
        obtain rfl : j = 0 := by omega
        decide +kernel, by decide +kernel⟩⟩

theorem witness_ReadOwnAssemblesFromItsSnapshot :
    ownS.AtRest ∧ ownS.Ends (.plain .u0) trOwn (answerFirst trOwn.answers (recorded trOwn.request (.okay 0x33))) ∧
    (let s := ownS.setTimebase (trOwn.grantTime + 64)
     s.AtRest ∧ s.Ends (.plain .u0) trOwn (closeUnanswered trOwn.answers) ∧ (s.timebase - trOwn.grantTime).toNat = 64) ∧
    (ownS.port .u0).service.piece = some ⟨3, some ⟨0, 0, 0⟩, .readOwn snap0⟩ ∧ (ownS.port .u0).queue = .read 0x100 3 :: [] ∧
    isRead (.read 0x100 3) = true ∧ (ownS.port .u0).service.next + 3 = (Request.read 0x100 3).beats :=
  ⟨rest_own, ⟨rfl, rfl, rfl, by decide +kernel⟩,
    ⟨⟨by decide +kernel, rfl⟩, ⟨rfl, rfl, rfl, by decide +kernel⟩, by decide +kernel⟩, by decide +kernel⟩

theorem witness_TheTimeoutEndsTheTransaction :
    base.mem.outstanding = none ∧ (plainS.AtRest ∧ plainS.mem.outstanding = some trPlain ∧ 64 = (plainS.timebase - trPlain.grantTime).toNat) ∧
    ((plainS.setTimebase 999).timebase - trPlain.grantTime).toNat ≠ 64 ∧ ((plainS.setTimebase 1001).timebase - trPlain.grantTime).toNat ≠ 64 ∧
    (let s := plainS.setMem { plainS.mem with outstanding := some { trPlain with discard := true } }
     s.AtRest ∧ s.mem.outstanding = some { trPlain with discard := true }) ∧
    (trPlain.discard = false ∧ trPlain.requester = .plain .u2 ∧ .unanswered ∈ trPlain.answers ∧
      (plainS.port .u2).service.piece = some ⟨2, none, .memory⟩ ∧ (plainS.port .u2).queue = .read 0x1000 2 :: [] ∧
      (plainS.port .u2).service.next + 2 = (Request.read 0x1000 2).beats) :=
  ⟨rfl, ⟨rest_plain, by decide +kernel⟩, by decide +kernel, by decide +kernel, ⟨⟨by decide +kernel, rfl⟩, rfl⟩, by decide +kernel⟩

theorem witness_EnginesRequestTheirBursts :
    (closedS.engine = .idle ∧ closedS.pool.closeOrder = [] ++ 0 :: [] ∧ (closedS.buffer 0).state = .closed ∧
      (closedS.buffer 0).waitCount = 0 ∧
      (∀ k, k < 4 → ((cellD (closedS.buffer 0).mask k 0 ≠ 0 ∨ (closedS.definition 0).versionWord = some k) ↔ 0 ≤ k ∧ k ≤ 1))) ∧
    writingS.engine ≠ .idle ∧ (base.engine = .idle ∧ base.pool.closeOrder = []) ∧
    (readingS.captures = [cap0 .reading] ∧ (cap0 .reading).state ≠ .queued) ∧
    ((captS .queued).captures = cap0 .queued :: [] ∧ (cap0 .queued).state = .queued) := by decide +kernel

theorem witness_ACommitCompletionSettlesItsRecord :
    writingS.AtRest ∧ writingS.pool.holds = [] ∧
    writingS.Ends .commit tr0 (answerFirst tr0.answers (recorded tr0.request (.okay 0))) ∧
    (writingS.Ends .commit tr0 (closeUnanswered tr0.answers) ∧ 64 = (writingS.timebase - tr0.grantTime).toNat) ∧
    writingS.engine = .writing job0 ∧ (closeUnanswered job0.answers).any Answer.isFault = true ∧
    writingS.events.queueMask.getLsbD 5 = true ∧ writingS.events.queue.length < 32 :=
  ⟨rest_writing, by decide +kernel, ⟨rfl, rfl, rfl, by decide +kernel⟩, ⟨⟨rfl, rfl, rfl, by decide +kernel⟩, by decide +kernel⟩,
    by decide +kernel⟩

theorem witness_WatchesAreEvaluatedAtACommit :
    (watched writingS).AtRest ∧ (watched writingS).pool.holds = [] ∧
    (watched writingS).Ends .commit tr0 (answerFirst tr0.answers (recorded tr0.request .fault)) ∧
    (watched writingS).engine = .writing job0 ∧
    ((watched writingS).definition ((watched writingS).buffer 0).region).versionBase + ((watched writingS).buffer 0).record < 4096 ∧
    (let w := cell (watched writingS).events.watches 2
     w.state = .active ∧ w.region = ((watched writingS).buffer 0).region ∧ w.record = some ((watched writingS).buffer 0).record ∧
     job0.first ≤ w.offset ∧ job0.words[w.offset - job0.first]? = some ⟨0x11, 0xF⟩ ∧
     (answerFirst job0.answers (recorded tr0.request .fault))[w.offset - job0.first]? = some (.okay 0) ∧
     ¬ (0x11#32 &&& w.mask = w.reference &&& w.mask)) ∧
    (cell (watched writingS).events.watches 3).state ≠ .active :=
  ⟨⟨by decide +kernel, rfl⟩, by decide +kernel, ⟨rfl, rfl, rfl, by decide +kernel⟩, by decide +kernel⟩

/-- 07 R129, 04 R77: at a faulted commit that ONE watch matches, RECORD_TORN and then WATCH_MATCH, each with the advanced version. -/
theorem test_watch_match :
    (after (.memoryAnswer 7 .fault) (watched writingS)).events.queue =
      [⟨0, .recordTorn .commitFault, 0, .u0, 0, 1, 1000⟩, ⟨1, .watchMatch 2, 0, .u0, 0, 1, 1000⟩] ∧
    cell (after (.memoryAnswer 7 .fault) (watched writingS)).events.watches 2 = { watch0 with state := .spent, reference := 0x11 } := by
  decide +kernel

theorem witness_PostingKeepsDropsOrLosesTheEvent :
    base.events.queueMask.getLsbD ((codeOfKind .viewExpired).toNat - 1) = false ∧
    (base.events.queueMask.getLsbD ((codeOfKind (.memoryFault 0)).toNat - 1) = true ∧ base.events.queue.length < 32) ∧
    (let e := { base.events with queue := List.replicate 32 ev0, lost := 255 }
     e.queueMask.getLsbD ((codeOfKind (.memoryFault 0)).toNat - 1) = true ∧ ¬ e.queue.length < 32 ∧ e.lost ≤ 255) := by decide +kernel

theorem witness_ACompletedCaptureFillsItsView :
    readingS.AtRest ∧ readingS.captures = cap0 .reading :: [] ∧ (cap0 .reading).view = some 0 ∧ (cap0 .reading).holdSet.Nodup ∧
    readingS.Ends .capture trCap (answerFirst trCap.answers (recorded trCap.request (.okay 5))) ∧
    (cap0 .reading).answers = trCap.answers ∧
    (∀ y ∈ answerFirst trCap.answers (recorded trCap.request (.okay 5)), y.isFault = false) ∧
    (readingS.port .u1).service.piece = none :=
  ⟨rest_reading, by decide +kernel, by decide +kernel, by decide +kernel, ⟨rfl, rfl, rfl, by decide +kernel⟩, by decide +kernel⟩

theorem witness_AFaultedCaptureReleasesItsView :
    readingS.AtRest ∧ readingS.ViewsLawful ∧ readingS.captures = cap0 .reading :: [] ∧
    readingS.Ends .capture trCap (answerFirst trCap.answers (recorded trCap.request .fault)) ∧
    (readingS.Ends .capture trCap (closeUnanswered trCap.answers) ∧ 64 = (readingS.timebase - trCap.grantTime).toNat) ∧
    (closeUnanswered trCap.answers)[0]? = some .fault ∧ (readingS.port .u1).service.piece = none :=
  ⟨rest_reading, views_reading, by decide +kernel, ⟨rfl, rfl, rfl, by decide +kernel⟩,
    ⟨⟨rfl, rfl, rfl, by decide +kernel⟩, by decide +kernel⟩, by decide +kernel⟩

theorem witness_AWaitingReadIsAnsweredByItsCapture :
    waitingS.AtRest ∧ waitingS.captures = cap0 .reading :: [] ∧
    waitingS.Ends .capture trCap (answerFirst trCap.answers (recorded trCap.request (.okay 5))) ∧
    waitingS.Ends .capture trCap (answerFirst trCap.answers (recorded trCap.request .fault)) ∧
    (waitingS.port .u1).service.piece = some ⟨2, some ⟨0, 0, 1⟩, .onView 0⟩ ∧ (waitingS.port .u1).queue = .read 0x104 2 :: [] ∧
    (waitingS.port .u1).service.next + 2 = (Request.read 0x104 2).beats ∧ (waitingS.definition 0).versionWord = some (1 + 0) :=
  ⟨rest_waiting, by decide +kernel, ⟨rfl, rfl, rfl, by decide +kernel⟩, ⟨rfl, rfl, rfl, by decide +kernel⟩, by decide +kernel⟩

/-- The clause on a piece that awaits a view: the front capture's end, by answer and by timeout, leaves view 0 for it. -/
theorem witness_AWaitingReadIsAnsweredByItsCapture_awaiting :
    awaitingS.AtRest ∧ awaitingS.ViewsLawful ∧ (awaitingS.captures.head? = some (cap0 .reading)) ∧
    awaitingS.Ends .capture trCap (answerFirst trCap.answers (recorded trCap.request (.okay 5))) ∧
    (awaitingS.Ends .capture trCap (closeUnanswered trCap.answers) ∧ (awaitingS.timebase - trCap.grantTime).toNat = 64) ∧
    (awaitingS.port .u1).service.piece = some ⟨1, some ⟨0, 4, 0⟩, .forView⟩ ∧ (awaitingS.port .u1).queue = [.read 0x140 1] ∧
    (awaitingS.port .u1).service.next + 1 = (Request.read 0x140 1).beats ∧ awaitingS.RestWithin (.read 0x140 1) 0 ⟨0, 4, 0⟩ ∧
    (awaitingS.definition 0).writer ≠ .u1 ∧ (awaitingS.definition 0).readers.get .u1 = true ∧ awaitingS.viewOf .u1 0 4 = none :=
  ⟨rest_awaiting, views_awaiting, by decide +kernel, ⟨rfl, rfl, rfl, by decide +kernel⟩,
    ⟨⟨rfl, rfl, rfl, by decide +kernel⟩, by decide +kernel⟩, by decide +kernel, by decide +kernel, by decide +kernel, fun j h => by
      have h : 0 + j < 1 := h
      obtain rfl : j = 0 := by omega
      decide +kernel, by decide +kernel⟩

theorem witness_CommandRowsAreWholeCommandFrames : base.linkReady := ready_base

theorem witness_BadCommandFramesGiveTheirOutcome :
    base.linkReady ∧ paramCount 0x00 = none ∧ (paramCount 0x11 = some 1 ∧ [0x11#8, 0x02#8].length < 1 + 2) ∧
    1 + 2 < [0x11#8, 0x02#8, 0x2A#8, 0x00#8].length ∧ [0x02#8, 0x2B#8][1]? ≠ some (crc8 [0x11, 0x02]) :=
  ⟨ready_base, by decide +kernel⟩

theorem witness_FramesRefusedIgnoredOrAbandoning :
    (linked base (.executing (.activate 1 0))).link.state = .executing (.activate 1 0) ∧
    (linked base (.result [0, 0, 0xB8] 3)).link.state = .result [0, 0, 0xB8] 3 ∧ base.hardResetLine = false ∧ base.link.frame = none ∧
    base.link.state = .idle ∧ (0x00 : Byte) ∉ knownOpeners := by decide +kernel

theorem witness_ResultFramesDeliverTheResult :
    (let s := linked base (.result [0, 0, 0xB8] 3)
     s.hardResetLine = false ∧ s.link.frame = none ∧ s.link.state = .result [0, 0, 0xB8] 3 ∧ 3 ≤ [(0 : Byte), 0, 0xB8].length) ∧
    base.link.state = .idle := by decide +kernel

theorem witness_StatusFramesReportTheLink :
    base.hardResetLine = false ∧ base.link.frame = none ∧ ∀ l n, base.link.state ≠ .receiving l n := ⟨rfl, rfl, fun _ _ h => by cases h⟩

theorem witness_IdentifyReturnsThePartsIdentity : base.AtRest ∧ base.linkReady := ⟨rest_base, ready_base⟩

theorem witness_RegionCommandsCheckIndexThenState :
    base.AtRest ∧ base.linkReady ∧ 15 < (16#8 : Byte).toNat ∧ (15#8 : Byte).toNat = (15 : RegionId).val ∧
    (base.region 15).state = .empty ∧ (base.region 0).state = .active := ⟨rest_base, ready_base, by decide +kernel⟩

theorem passes_p0 : PassesR2 p0 :=
  ⟨by decide, by decide, by decide, by decide, by decide, by decide, by decide, by decide, by decide, by decide, by decide, by decide⟩

theorem witness_DefineRegionStoresALegalDefinition :
    base.AtRest ∧ base.linkReady ∧ p0.regionIndex.toNat = (2 : RegionId).val ∧ (base.region 2).state = .empty ∧ PassesR2 p0 ∧
    ¬ PassesR2 { p0 with recordWords := 17 } :=
  ⟨rest_base, ready_base, by decide +kernel, by decide +kernel, passes_p0, fun h => absurd h.words.2 (by decide)⟩

theorem witness_RegionsAreReadAndCleared :
    (base.AtRest ∧ base.linkReady ∧ (15#8 : Byte).toNat = (15 : RegionId).val ∧ base.definition 15 = .emptyValues) ∧
    ((watched base).AtRest ∧ (watched base).linkReady ∧ (watched base).unusedWatchesBlank ∧ (1#8 : Byte).toNat = (1 : RegionId).val ∧
      ((watched base).region 1).state = .defined) :=
  ⟨⟨rest_base, ready_base, by decide +kernel⟩, rest_watched, ⟨rfl, rfl, rfl⟩, by unfold State.unusedWatchesBlank; decide +kernel,
    by decide +kernel⟩

theorem witness_ActivateComparesThenTakes :
    base.AtRest ∧ base.linkReady ∧ (1#8 : Byte).toNat = (1 : RegionId).val ∧ (base.region 1).state = .defined ∧
    1 ≤ (base.definition 1).recordCount ∧
    (let s := base.setRegion 1 ⟨.defined, { d1 with versionBase := 31 }⟩
     (0 : RegionId) ≠ 1 ∧ (s.region 0).state = .active ∧ shareEntry (s.definition 1) (s.definition 0)) :=
  ⟨rest_base, ready_base, by decide +kernel, by decide +kernel, by decide +kernel, by decide, by decide +kernel,
    31, by decide +kernel, by decide +kernel⟩

theorem within_waiting : waitingS.RestWithin (.read 0x104 2) 0 ⟨0, 0, 1⟩ := fun j h => by
  have h : 0 + j < 2 := h
  obtain rfl | rfl : j = 0 ∨ j = 1 := by omega
  all_goals decide +kernel

theorem quiet_gath : gathS.NoPieceNeedsAView := fun p x h => by cases p <;> cases h

theorem quiet_hold : holdS.NoPieceNeedsAView := fun p x h => by
  cases p with
  | u0 => cases h; exact ⟨by decide, fun _ => by intro e; cases e⟩
  | u1 => cases h
  | u2 => cases h

theorem witness_RetireDrainsTheRegion :
    (gathS.AtRest ∧ gathS.linkReady ∧ gathS.RegionsLawful ∧ gathS.PoolLawful ∧ gathS.UpdatesOwned ∧
      (0#8 : Byte).toNat = (0 : RegionId).val ∧ (gathS.region 0).state = .active ∧ 1 < (2#8 : Byte).toNat ∧ (1#8 : Byte).toNat ≤ 1 ∧
      gathS.pool.holds = [] ∧ gathS.NoPieceNeedsAView ∧ (gathS.buffer 0).state = .gathering ∧ (gathS.buffer 0).region = 0) ∧
    (holdS.AtRest ∧ holdS.linkReady ∧ holdS.RegionsLawful ∧ holdS.PoolLawful ∧ holdS.UpdatesOwned ∧ holdS.pool.holds = [hold0] ∧
      hold0.spot.region = 0 ∧ holdS.NoPieceNeedsAView ∧ (holdS.port .u0).queue = [.write 0x100 [⟨0x33, 0xF⟩]] ∧
      (holdS.port .u0).service.next + hold0.words.length = (Request.write 0x100 [⟨0x33, 0xF⟩]).beats) ∧
    (waitingS.AtRest ∧ waitingS.linkReady ∧ waitingS.RegionsLawful ∧ waitingS.PoolLawful ∧ waitingS.UpdatesOwned ∧
      waitingS.pool.holds = [] ∧ (waitingS.port .u1).service.piece = some ⟨2, some ⟨0, 0, 1⟩, .onView 0⟩ ∧
      (waitingS.view .u1 0).state ≠ .free ∧ (waitingS.view .u1 0).region = 0 ∧ (waitingS.port .u1).queue = [.read 0x104 2] ∧
      waitingS.RestWithin (.read 0x104 2) 0 ⟨0, 0, 1⟩) :=
  ⟨⟨rest_gath, ready_gath, regions_gath, pool_gath, owned_gath, by decide +kernel, by decide +kernel, by decide +kernel, by decide +kernel,
      rfl, quiet_gath, by decide +kernel⟩,
    ⟨rest_hold, ⟨rfl, rfl, rfl⟩, regions_hold, pool_hold, owned_hold, rfl, rfl, quiet_hold, by decide +kernel⟩,
    ⟨rest_waiting, ⟨rfl, rfl, rfl⟩, regions_waiting, pool_waiting, owned_waiting, rfl, by decide +kernel, by decide +kernel,
      by decide +kernel, by decide +kernel, within_waiting⟩⟩

theorem witness_LongCommandsCompleteWithWhatTheyAwait :
    (let s := linked (region0 writingS .draining) (.executing (.retire 0 2 0 1))
     s.AtRest ∧ s.PoolLawful ∧ s.Ends .commit tr0 (answerFirst tr0.answers (recorded tr0.request .fault)) ∧
     s.Ends .commit tr0 (closeUnanswered tr0.answers) ∧ (s.timebase - tr0.grantTime).toNat = 64 ∧ s.engine = .writing job0 ∧
     s.link.state = .executing (.retire 0 2 0 1) ∧ (s.region 0).state = .draining ∧ (s.buffer job0.buffer).region = 0 ∧
     (∀ b, b ≠ job0.buffer → (s.buffer b).state = .free ∨ (s.buffer b).region ≠ 0) ∧ s.pool.holds = []) ∧
    (let s := linked readingS (.executing (.flushPort 4 4 true))
     s.AtRest ∧ s.Ends .capture trCap (answerFirst trCap.answers (recorded trCap.request .fault)) ∧
     s.Ends .capture trCap (closeUnanswered trCap.answers) ∧ (s.timebase - trCap.grantTime).toNat = 64 ∧ s.captures ≠ [] ∧
     s.link.state = .executing (.flushPort 4 4 true)) ∧
    (let s := linked writingS (.executing (.restart 1 2 3 1 true false))
     s.AtRest ∧ s.link.state = .executing (.restart 1 2 3 1 true false) ∧
     s.Ends .commit tr0 (answerFirst tr0.answers (recorded tr0.request (.okay 0))) ∧ s.engine = .writing job0) ∧
    (let s := linked readingS (.executing (.restart 1 2 3 0 false true))
     s.AtRest ∧ s.Ends .capture trCap (answerFirst trCap.answers (recorded trCap.request (.okay 0))) ∧ s.captures ≠ []) :=
  ⟨⟨⟨by decide +kernel, rfl⟩, ⟨pool_writing.gathering_iff, pool_writing.gathering_nodup, pool_writing.gathering_le,
      pool_writing.close_iff, pool_writing.close_nodup, pool_writing.engine_iff⟩, ⟨rfl, rfl, rfl, by decide +kernel⟩,
      ⟨rfl, rfl, rfl, by decide +kernel⟩, by decide +kernel⟩,
    ⟨⟨by decide +kernel, rfl⟩, ⟨rfl, rfl, rfl, by decide +kernel⟩, ⟨rfl, rfl, rfl, by decide +kernel⟩, by decide +kernel⟩,
    ⟨⟨by decide +kernel, rfl⟩, by decide +kernel, ⟨rfl, rfl, rfl, by decide +kernel⟩, by decide +kernel⟩,
    ⟨⟨by decide +kernel, rfl⟩, ⟨rfl, rfl, rfl, by decide +kernel⟩, by decide +kernel⟩⟩

theorem witness_RecordsAreReadAndCleaned :
    gathS.AtRest ∧ gathS.linkReady ∧ gathS.PoolLawful ∧ (0#8 : Byte).toNat = (0 : RegionId).val ∧ (gathS.region 0).state = .active ∧
    (31#16 : Half).toNat < (gathS.definition 0).recordCount ∧ (gathS.definition 0).recordCount ≤ (32#16 : Half).toNat :=
  ⟨rest_gath, ready_gath, pool_gath, by decide +kernel⟩

theorem witness_SetWatchChecksThenArms :
    base.AtRest ∧ base.linkReady ∧ 7 < (8#8 : Byte).toNat ∧ (7#8 : Byte).toNat = (7 : WatchIx).val ∧ 15 < (16#8 : Byte).toNat ∧
    (base.region 15).state = .empty ∧ (base.region 0).state ≠ .empty ∧
    ((31#16 : Half).toNat < (base.definition 0).recordCount ∧ (3#8 : Byte).toNat < (base.definition 0).recordWords ∧
      (2#8 : Byte).toNat ≤ 2 ∧ (1#8 : Byte).toNat ≤ 1) ∧
    ¬ (4#8 : Byte).toNat < (base.definition 0).recordWords := ⟨rest_base, ready_base, by decide +kernel⟩

theorem witness_WatchesAreClearedAndRead :
    (watched base).AtRest ∧ (watched base).linkReady ∧ 7 < (8#8 : Byte).toNat ∧ (7#8 : Byte).toNat = (7 : WatchIx).val ∧
    (cell (watched base).events.watches 7).state = .unused ∧ (watched base).unusedWatchesBlank :=
  ⟨rest_watched, ⟨rfl, rfl, rfl⟩, by decide, by decide, by decide +kernel, by unfold State.unusedWatchesBlank; decide +kernel⟩

theorem witness_EventsAreReadAndMasked :
    queuedS.AtRest ∧ queuedS.linkReady ∧ (0#8 : Byte).toNat = 0 ∧ 8 < (9#8 : Byte).toNat ∧ 1 ≤ (8#8 : Byte).toNat ∧ (8#8 : Byte).toNat ≤ 8 ∧
    queuedS.events.queue[0]? = some ev0 ∧ 512 ≤ (0x200#16 : Half).toNat ∧ (0x1FF#16 : Half).toNat < 512 :=
  ⟨rest_queued, ⟨rfl, rfl, rfl⟩, by decide +kernel⟩

theorem witness_FlushPortDiscardsThePortsCoherenceWork :
    (gathS.AtRest ∧ gathS.linkReady ∧ gathS.PoolLawful ∧ 2 < (3#8 : Byte).toNat ∧ codeOfPort .u2 = 2 ∧ gathS.ViewsLawful ∧
      gathS.pool.holds = [] ∧ (gathS.port .u0).service.piece = none ∧ (gathS.buffer 0).state = .gathering ∧ (gathS.buffer 0).writer = .u0) ∧
    (readingS.AtRest ∧ readingS.linkReady ∧ cap0 .reading ∈ readingS.captures ∧ (cap0 .reading).state = .reading ∧
      (cap0 .reading).port = .u1 ∧ (cap0 .reading).view = some 0 ∧ (readingS.view .u1 0).state ≠ .free) ∧
    (waitingS.AtRest ∧ waitingS.linkReady ∧ waitingS.PoolLawful ∧ waitingS.ViewsLawful ∧ waitingS.pool.holds = [] ∧
      (waitingS.port .u1).service.piece = some ⟨2, some ⟨0, 0, 1⟩, .onView 0⟩ ∧ (waitingS.view .u1 0).state ≠ .free ∧
      (waitingS.port .u1).queue = [.read 0x104 2] ∧ waitingS.RestWithin (.read 0x104 2) 0 ⟨0, 0, 1⟩) ∧
    (awaitingS.AtRest ∧ awaitingS.linkReady ∧ awaitingS.pool.holds = [] ∧
      (awaitingS.port .u1).service.piece = some ⟨1, some ⟨0, 4, 0⟩, .forView⟩) :=
  ⟨⟨rest_gath, ready_gath, pool_gath, by decide +kernel, by decide +kernel, views_gath, by decide +kernel⟩,
    ⟨rest_reading, ready_reading, by decide +kernel⟩,
    ⟨rest_waiting, ⟨rfl, rfl, rfl⟩, pool_waiting, views_waiting, rfl, by decide +kernel, by decide +kernel, by decide +kernel,
      within_waiting⟩,
    rest_awaiting, ⟨rfl, rfl, rfl⟩, rfl, by decide +kernel⟩

theorem witness_RestartDiscardsUncommittedWork :
    (gathS.AtRest ∧ gathS.linkReady ∧ gathS.PoolLawful ∧ gathS.ViewsLawful ∧ gathS.pool.holds = [] ∧ gathS.engine = .idle ∧
      gathS.NoPieceNeedsAView) ∧
    (writingS.AtRest ∧ writingS.linkReady ∧ writingS.PoolLawful ∧ writingS.engine ≠ .idle) :=
  ⟨⟨rest_gath, ready_gath, pool_gath, views_gath, rfl, rfl, quiet_gath⟩, rest_writing, ready_writing, pool_writing, by decide +kernel⟩

theorem witness_EveryStepKeepsTheEventUnitLawful :
    queuedS.events.Lawful ∧ queuedS.unusedWatchesBlank ∧ step queuedS = .next queuedS :=
  ⟨⟨by decide +kernel, by decide +kernel, by decide +kernel⟩, by unfold State.unusedWatchesBlank; decide +kernel, rfl⟩

theorem witness_EveryStepKeepsTheRegionsLawful :
    base.RegionsLawful ∧ base.AtRest ∧ exec (.clearRegion 1) base = .next (after (.clearRegion 1) base) ∧
    ((after (.clearRegion 1) base).region 1).state ≠ (base.region 1).state := ⟨regions_base, rest_base, rfl, by decide +kernel⟩

theorem witness_EveryStepKeepsThePoolLawful :
    (fullWith d0).PoolLawful ∧ (fullWith d0).WaitsLawful ∧ step (fullWith d0) = .next (fullWith d0) := ⟨pool_full, waits_full, rfl⟩

theorem owners_reading : readingS.OwnersLawful where
  commitPending := fun h => absurd rfl h
  requesting := fun _ h => by cases h
  writing := fun _ h => by cases h
  commitOut := fun tr h q => by cases h; cases q
  behind := fun _ h => by cases h
  captureRequesting := fun c m h => by
    have e : c = cap0 .reading := by simpa [readingS, captS] using m
    subst e; cases h
  capturePending := fun h => absurd rfl h
  captureReading := fun c m _ => by
    have e : c = cap0 .reading := by simpa [readingS, captS] using m
    subst e; exact ⟨trCap, rfl, rfl, rfl⟩
  captureOut := fun tr h _ => by cases h; exact ⟨rfl, cap0 .reading, by decide +kernel, rfl⟩
  plainPending := fun p h => by cases p <;> exact absurd rfl h
  plainOut := fun tr p h q => by cases h; cases q

theorem witness_EveryStepKeepsTheViewsLawful :
    readingS.PortsLawful ∧ readingS.ViewsLawful ∧ readingS.OwnersLawful ∧ step readingS = .next readingS :=
  ⟨ports_reading, views_reading, owners_reading, rfl⟩

theorem timers_hold : holdS.TimersLawful where
  hold := by decide +kernel
  update := by decide +kernel
  view := fun p => by cases p <;> decide +kernel
  memory := fun _ h => by cases h
  owned := fun p => by cases p <;> decide +kernel

theorem witness_EveryStepLeavesThePartAtRest :
    holdS.PortsLawful ∧ holdS.AtRest ∧ holdS.PoolLawful ∧ holdS.HoldsWait ∧ holdS.RegionsLawful ∧ holdS.ViewsLawful ∧
    holdS.UpdatesOwned ∧ holdS.TimersLawful ∧ holdS.Due (.hold .u0) ∧ step holdS = .next holdS :=
  ⟨ports_hold, rest_hold, pool_hold, fun _ _ => .inl (by decide +kernel), regions_hold,
    ⟨views_base.use_iff, views_base.use_nodup, views_base.unique, views_base.fills, views_base.capturing, views_base.distinct⟩,
    owned_hold, timers_hold, ⟨hold0, by decide +kernel, rfl, by decide +kernel⟩, rfl⟩

theorem witness_EveryStepKeepsOneUpdatePerRecord :
    holdS.RegionsLawful ∧ holdS.PoolLawful ∧ holdS.PortsLawful ∧ holdS.UpdatesOwned ∧ holdS.OneUpdatePerRecord ∧
    step holdS = .next holdS := ⟨regions_hold, pool_hold, ports_hold, owned_hold, one_hold, rfl⟩

theorem witness_VersionsCountCommits :
    exec (.memoryAnswer 7 (.okay 0)) writingS = .next (after (.memoryAnswer 7 (.okay 0)) writingS) ∧
    (cell (after (.memoryAnswer 7 (.okay 0)) writingS).versions 0).version ≠ (cell writingS.versions 0).version ∧
    (let s := (linked (base.setRegionState 1 .activating) (.executing (.activate 1 0))).setEntry 1 0 ⟨9, .torn⟩
     exec .timebaseTick s = .next (after .timebaseTick s) ∧ (s.entry 1 0).version = 9 ∧
      ((after .timebaseTick s).entry 1 0).version = 0) := ⟨rfl, by decide +kernel, rfl, by decide +kernel, by decide +kernel⟩

theorem witness_OneResponsePerRequest :
    exec (.memoryAnswer 3 .fault) plainS = .next (after (.memoryAnswer 3 .fault) plainS) ∧
    exec (.portReset .u2) plainS = .next (after (.portReset .u2) plainS) := ⟨rfl, rfl⟩

end Sys2Proof.Tests
end

/-! SUPPORT. DEFINE REGION (01 R2, R3; 08 R157): the codes of a definition's fields read back, the model's test of the
fields is R2's checks, what is stored is a legal definition with the bytes sent, and what a command that answers at once
leaves behind. -/

namespace Sys2Proof.Machine

/-! ### Codes read back (08 R155, R157) -/

theorem portOfCode_isSome (b : Byte) : (portOfCode b).isSome = true ↔ b.toNat ≤ 2 := by
  unfold portOfCode
  split_ifs with h0 h1 h2 <;> simp <;> bv_omega

theorem policyOfCode_isSome (b : Byte) : (policyOfCode b).isSome = true ↔ b.toNat ≤ 2 := by
  unfold policyOfCode
  split_ifs with h0 h1 h2 <;> simp <;> bv_omega

theorem actionOfCode_isSome (b : Byte) : (actionOfCode b).isSome = true ↔ b.toNat ≤ 1 := by
  unfold actionOfCode
  split_ifs with h0 h1 <;> simp <;> bv_omega

/-- The port of a code has that code, whatever stands for the bytes that are no port's code. -/
theorem codeOfPort_portOfCode {b : Byte} (p : Port) (h : b.toNat ≤ 2) : codeOfPort ((portOfCode b).getD p) = b := by
  unfold portOfCode
  split_ifs with h0 h1 h2
  · exact h0.symm
  · exact h1.symm
  · exact h2.symm
  · bv_omega

/-- The policy of a code has that code. -/
theorem codeOfPolicy_policyOfCode {b : Byte} (x : Policy) (h : b.toNat ≤ 2) :
    codeOfPolicy ((policyOfCode b).getD x) = b := by
  unfold policyOfCode
  split_ifs with h0 h1 h2
  · exact h0.symm
  · exact h1.symm
  · exact h2.symm
  · bv_omega

/-- The expiry action of a code has that code. -/
theorem codeOfAction_actionOfCode {b : Byte} (x : ExpiryAction) (h : b.toNat ≤ 1) :
    codeOfAction ((actionOfCode b).getD x) = b := by
  unfold actionOfCode
  split_ifs with h0 h1
  · exact h0.symm
  · exact h1.symm
  · bv_omega

/-- A port's bit of the reader-set byte is the one its code numbers. -/
theorem readersOf_get (b : Byte) (p : Port) : (readersOf b).get p = b.getLsbD (codeOfPort p).toNat := by
  cases p <;> rfl

/-- A reader-set byte with no bit above U2's is that of the set it names. -/
theorem readersByte_readersOf {b : Byte} (h : b.toNat < 8) : readersByte (readersOf b) = b := by
  have eight : ∀ k : Fin 8, readersByte (readersOf (BitVec.ofNat 8 k.val)) = BitVec.ofNat 8 k.val := by decide
  simpa using eight ⟨b.toNat, h⟩

/-- A region byte names the region of its number (01 R1, step 1). -/
theorem regionOfByte_eq {b : Byte} {r : RegionId} (h : b.toNat = r.val) : regionOfByte b = some r := by
  unfold regionOfByte
  rw [dif_pos (h ▸ r.isLt)]
  exact congrArg some (Fin.ext h)

/-! ### The definition sent (01 R2, R3, R4) -/

section
variable {d : DefineParams}

/-- Where the writer byte names a port, the definition has its writer among the readers exactly if the reader-set byte has
the bit that the writer byte numbers. -/
theorem definitionOf_readers_writer (r : RegionId) (h : d.writer.toNat ≤ 2) :
    (definitionOf d r).readers.get (definitionOf d r).writer = d.readers.getLsbD d.writer.toNat := by
  show (readersOf d.readers).get ((portOfCode d.writer).getD .u0) = _
  rw [readersOf_get, codeOfPort_portOfCode _ h]

/-- The model's test of the fields is R2's checks. -/
theorem legalDefinition_iff : legalDefinition d = true ↔ PassesR2 d := by
  have apart := definitionOf_readers_writer (d := d) 0
  simp only [definitionOf] at apart
  simp only [legalDefinition, Bool.and_eq_true, Bool.or_eq_true, Bool.not_eq_true', beq_iff_eq, bne_iff_ne,
    decide_eq_true_eq, portOfCode_isSome, policyOfCode_isSome, actionOfCode_isSome, and_assoc]
  constructor
  · rintro ⟨base, words, words', count, count', entry, entries, writer, readers, excluded, close, release, word, notClose,
      policy, action, span⟩
    exact ⟨base, by omega, by omega, ⟨entry, entries⟩, writer, readers, (apart writer).symm.trans excluded, ⟨close, release⟩,
      word, notClose, ⟨policy, action⟩, by omega⟩
  · rintro ⟨base, words, count, versions, writer, readers, excluded, offsets, word, notClose, names, span⟩
    exact ⟨base, by omega, words.2, by omega, count.2, versions.1, versions.2, writer, readers,
      (apart writer).trans excluded, offsets.1, offsets.2, word, notClose, names.1, names.2, by omega⟩

/-- Fields that pass R2's checks spell a legal definition. -/
theorem definitionOf_legal (h : PassesR2 d) (r : RegionId) : (definitionOf d r).Legal where
  aligned := h.base
  words := h.words
  count := h.count
  versions := h.versions.2
  span := by
    have le := h.span
    show d.base.toNat + 4 * d.recordWords.toNat * d.recordCount.toNat ≤ 2 ^ 32
    omega
  reader := (definitionOf_readers_writer r h.writer).trans h.apart
  close := h.offsets.1
  release := h.offsets.2
  version k hk := by
    simp only [definitionOf, Option.ite_none_left_eq_some, Option.some.injEq] at hk
    obtain ⟨notNone, rfl⟩ := hk
    exact ⟨h.versionWord.resolve_left notNone, fun e => h.notClose (BitVec.eq_of_toNat_eq e)⟩

/-- The definition stored has, byte for byte, the parameters that were sent (01 R3; 08 R157). -/
theorem definitionBytes_definitionOf {r : RegionId} (h : PassesR2 d) (hr : d.regionIndex.toNat = r.val) :
    definitionBytes (definitionOf d r) = defineBytes d := by
  have writer := codeOfPort_portOfCode .u0 h.writer
  have policy := codeOfPolicy_policyOfCode .through h.names.1
  have action := codeOfAction_actionOfCode .discard h.names.2
  have readers := readersByte_readersOf h.readers
  by_cases word : d.versionWord = 255#8
  · simp [definitionBytes, defineBytes, definitionOf, byteOf, halfOf, ← hr, writer, policy, action, readers, word]
  · simp [definitionBytes, defineBytes, definitionOf, byteOf, halfOf, ← hr, writer, policy, action, readers, word]

end

/-! ### Sending a command that answers at once (08 R145, R146) -/

section
variable {s : State} {c : Command}

/-- With a ready link, a command whose owner turns `s` into `t`, the link aside, and replies DONE leaves `t` with that result,
provided no router of `t` can move. -/
theorem State.sendCommand_done {t : State} {data : List Byte} (ready : s.linkReady) (rest : t.movable = [])
    (link : t.link = s.link) (h : ∀ x, (s.setLink x).carryOut c = (t.setLink x, .done data)) :
    s.sendCommand c = t.returns c .done data := by
  rw [s.sendCommand_ready c ready, State.execute_done _ c _ data (h _)]
  · simp only [State.returns, link]
    rfl
  · exact rest

/-- With a ready link and the part at rest, a command that fails a check leaves the state as it was with that result. -/
theorem State.sendCommand_fail {code : Completion} (ready : s.linkReady) (rest : s.AtRest)
    (h : ∀ x, (s.setLink x).carryOut c = (s.setLink x, .fail code)) : s.sendCommand c = s.returns c code [] := by
  rw [s.sendCommand_ready c ready, State.execute_fail _ c code (h _)]
  · rfl
  · exact rest.routers

end

/-! ### DEFINE REGION (01 R1, R2, R3) -/

section
variable {s : State} {d : DefineParams} {r : RegionId}

/-- Whether a router can move does not depend on the region table. -/
theorem State.movable_setRegion (s : State) (r : RegionId) (x : Region) : (s.setRegion r x).movable = s.movable := rfl

/-- The row sends the command as one whole frame. -/
theorem exec_defineRegion (d : DefineParams) (s : State) :
    exec (.defineRegion d) s = .next (s.sendCommand (.defineRegion d)) := rfl

/-- In EMPTY or DEFINED, fields that pass R2's checks are stored whole, and the region is left DEFINED. -/
theorem State.doDefineRegion_legal (hr : d.regionIndex.toNat = r.val)
    (allowed : (s.region r).state = .empty ∨ (s.region r).state = .defined) (h : PassesR2 d) :
    s.doDefineRegion d = (s.setRegion r ⟨.defined, definitionOf d r⟩, .done []) := by
  simp only [State.doDefineRegion, regionOfByte_eq hr, if_pos allowed, if_pos (legalDefinition_iff.2 h)]

/-- In EMPTY or DEFINED, fields that fail one of R2's checks are answered BAD_PARAM. -/
theorem State.doDefineRegion_illegal (hr : d.regionIndex.toNat = r.val)
    (allowed : (s.region r).state = .empty ∨ (s.region r).state = .defined) (h : ¬ PassesR2 d) :
    s.doDefineRegion d = (s, .fail .badParam) := by
  simp only [State.doDefineRegion, regionOfByte_eq hr, if_pos allowed, if_neg (mt legalDefinition_iff.1 h)]

/-- The whole row with fields that pass R2's checks. -/
theorem exec_defineRegion_legal (rest : s.AtRest) (ready : s.linkReady) (hr : d.regionIndex.toNat = r.val)
    (allowed : (s.region r).state = .empty ∨ (s.region r).state = .defined) (h : PassesR2 d) :
    exec (.defineRegion d) s =
      .next ((s.setRegion r ⟨.defined, definitionOf d r⟩).returns (.defineRegion d) .done []) := by
  rw [exec_defineRegion, State.sendCommand_done ready ((s.movable_setRegion r _).trans rest.routers) rfl]
  exact fun x => State.doDefineRegion_legal (s := s.setLink x) hr allowed h

/-- The whole row with fields that fail one of R2's checks. -/
theorem exec_defineRegion_illegal (rest : s.AtRest) (ready : s.linkReady) (hr : d.regionIndex.toNat = r.val)
    (allowed : (s.region r).state = .empty ∨ (s.region r).state = .defined) (h : ¬ PassesR2 d) :
    exec (.defineRegion d) s = .next (s.returns (.defineRegion d) .badParam []) := by
  rw [exec_defineRegion, State.sendCommand_fail ready rest]
  exact fun x => State.doDefineRegion_illegal (s := s.setLink x) hr allowed h

/-- The entry written is read back, whatever result the link then holds. -/
theorem State.returns_setRegion_definition (s : State) (r : RegionId) (x : Region) (c : Command) (code : Completion)
    (data : List Byte) : ((s.setRegion r x).returns c code data).definition r = x.definition :=
  congrArg Region.definition (s.setRegion_region_same r x)

end

/-- Settles O41: the model's test of the fields is R2's checks, and a definition that passes them is stored with the bytes
that were sent. -/
theorem defineRegionStoresALegalDefinition : Obligations.DefineRegionStoresALegalDefinition := by
  intro s d r rest ready hr allowed
  constructor
  · intro h
    refine ⟨_, exec_defineRegion_legal rest ready hr allowed h, ?_⟩
    rw [State.returns_setRegion_definition]
    exact ⟨rfl, definitionBytes_definitionOf h hr, definitionOf_legal h r⟩
  · exact exec_defineRegion_illegal rest ready hr allowed

end Sys2Proof.Machine

/-! SUPPORT. An answer at the memory port (06 R113, R115): where an answer is recorded, what a handed-on answer writes, and
that a part at rest stays at rest when only the memory port and its two engines change. -/

namespace Sys2Proof.Machine

/-! ### Recording answers (06 R113) -/

/-- The first UNANSWERED word takes the answer; the words before it, all answered, and those after it keep theirs. -/
theorem answerFirst_append {done : List Answer} (rest : List Answer) (a : Answer) (h : ∀ x ∈ done, x ≠ .unanswered) :
    answerFirst (done ++ .unanswered :: rest) a = done ++ a :: rest := by
  induction done with
  | nil => rfl
  | cons x xs ih =>
    obtain ⟨hx, hxs⟩ := List.forall_mem_cons.1 h
    cases x with
    | unanswered => exact absurd rfl hx
    | okay w => exact congrArg (.okay w :: ·) (ih hxs)
    | fault => exact congrArg (.fault :: ·) (ih hxs)

theorem allAnswered_iff {as : List Answer} : allAnswered as = true ↔ .unanswered ∉ as := by
  simp only [allAnswered, List.all_eq_true, bne_iff_ne]
  exact ⟨fun h m => h _ m rfl, fun h x m e => h (e ▸ m)⟩

section
variable (s : State)

/-! ### Handing an answer on (04 R75, 05 R95) -/

@[simp] theorem State.handOn_plain (p : Port) (f : List Answer → List Answer) : s.handOn (.plain p) f = s := rfl

theorem State.handOn_commit {job : CommitJob} (f : List Answer → List Answer) (h : s.engine = .writing job) :
    s.handOn .commit f = s.setEngine (.writing { job with answers := f job.answers }) := by
  simp only [State.handOn, h]

theorem State.handOn_capture {c : Capture} {cs : List Capture} (f : List Answer → List Answer) (h : s.captures = c :: cs) :
    s.handOn .capture f = s.setCaptures ({ c with answers := f c.answers } :: cs) := by
  simp only [State.handOn, h]

/-- Handing an answer on writes the commit engine and the capture queue alone. -/
theorem State.handOn_fields (q : Requester) (f : List Answer → List Answer) :
    s.handOn q f = (s.setEngine (s.handOn q f).engine).setCaptures (s.handOn q f).captures := by
  cases q with
  | plain p => rfl
  | commit => unfold State.handOn; cases s.engine <;> rfl
  | capture => unfold State.handOn; cases s.captures <;> rfl

@[simp] theorem State.handOn_mem (q : Requester) (f : List Answer → List Answer) : (s.handOn q f).mem = s.mem := by
  rw [s.handOn_fields]
  rfl

/-! ### Recording a change of the answers (06 R113) -/

/-- The state whose outstanding transaction is this one; nothing else changed. -/
def State.withOutstanding (s : State) (t : Transaction) : State := s.setMem { s.mem with outstanding := some t }

section
variable (t : Transaction) (f : List Answer → List Answer)

/-- With the discard indicator on, the answers of the transaction change and nothing else does. -/
theorem State.recordAnswers_discard (h : t.discard = true) :
    s.recordAnswers t f = s.withOutstanding { t with answers := f t.answers } :=
  if_pos h

theorem State.recordAnswers_kept (h : t.discard = false) :
    s.recordAnswers t f = (s.withOutstanding { t with answers := f t.answers }).handOn t.requester f :=
  if_neg (by rw [h]; exact Bool.false_ne_true)

/-- Recording writes the transaction's answers at the memory port, whatever is handed on. -/
theorem State.recordAnswers_mem :
    (s.recordAnswers t f).mem = { s.mem with outstanding := some { t with answers := f t.answers } } := by
  obtain h | h := Bool.eq_false_or_eq_true t.discard
  · rw [s.recordAnswers_discard t f h]; rfl
  · rw [s.recordAnswers_kept t f h, State.handOn_mem]; rfl

/-- Recording writes the memory port, the commit engine and the capture queue alone. -/
theorem State.recordAnswers_fields :
    s.recordAnswers t f = ((s.setMem (s.recordAnswers t f).mem).setEngine (s.recordAnswers t f).engine).setCaptures
      (s.recordAnswers t f).captures := by
  rw [s.recordAnswers_mem]
  obtain h | h := Bool.eq_false_or_eq_true t.discard
  · rw [s.recordAnswers_discard t f h]; rfl
  · rw [s.recordAnswers_kept t f h]; exact State.handOn_fields ..

/-- A plain requester has no record of its own: nothing is handed on. -/
theorem State.recordAnswers_plain {p : Port} (h : t.requester = .plain p) :
    s.recordAnswers t f = s.withOutstanding { t with answers := f t.answers } := by
  obtain d | d := Bool.eq_false_or_eq_true t.discard
  · exact s.recordAnswers_discard t f d
  · rw [s.recordAnswers_kept t f d, h, State.handOn_plain]

/-- The commit engine in WRITING records the same change in its own answers, unless the discard indicator is on. -/
theorem State.recordAnswers_commit {job : CommitJob} (commit : t.requester = .commit) (keep : t.discard = false)
    (writing : s.engine = .writing job) :
    (s.recordAnswers t f).engine = .writing { job with answers := f job.answers } := by
  rw [s.recordAnswers_kept t f keep, commit]
  exact congrArg State.engine (State.handOn_commit (s.withOutstanding _) f writing)

/-- The capture at the front records the same change in its own answers, unless the discard indicator is on. -/
theorem State.recordAnswers_capture {c : Capture} {cs : List Capture} (capture : t.requester = .capture)
    (keep : t.discard = false) (front : s.captures = c :: cs) :
    (s.recordAnswers t f).captures = { c with answers := f c.answers } :: cs := by
  rw [s.recordAnswers_kept t f keep, capture]
  exact congrArg State.captures (State.handOn_capture (s.withOutstanding _) f front)

/-- While a word is left UNANSWERED, the transaction does not end. -/
theorem State.takeAnswers_open (h : .unanswered ∈ f t.answers) : s.takeAnswers t f = s.recordAnswers t f :=
  if_neg fun e => allAnswered_iff.1 e h

end

/-! ### Accepting and discarding (06 R113, R115) -/

/-- With the port IDLE, or the tag not the outstanding transaction's, the answer is discarded. -/
theorem State.memoryAnswer_discarded {tag : Byte} (a : MemAnswer) (h : ∀ tr, s.mem.outstanding = some tr → tr.tag ≠ tag) :
    s.memoryAnswer tag a = s := by
  cases out : s.mem.outstanding with
  | none => simp only [State.memoryAnswer, out]
  | some tr => simp only [State.memoryAnswer, out, if_neg (h tr out)]

/-- Under the outstanding transaction's tag the answer is accepted. -/
theorem State.memoryAnswer_accepted {tr : Transaction} (a : MemAnswer) (h : s.mem.outstanding = some tr) :
    s.memoryAnswer tr.tag a = s.takeAnswers tr fun as => answerFirst as (recorded tr.request a) := by
  simp only [State.memoryAnswer, h, if_pos]

/-- The row takes the answer and settles. -/
theorem exec_memoryAnswer (tag : Byte) (a : MemAnswer) : exec (.memoryAnswer tag a) s = .next (s.memoryAnswer tag a).settle := rfl

/-! ### Rest (02 R26, 08 R145) -/

/-- No long command's condition looks at the memory port, the commit engine or the capture queue. -/
theorem State.completeLong_setMem_setEngine_setCaptures (m : MemPort) (e : CommitEngine) (l : List Capture) :
    (((s.setMem m).setEngine e).setCaptures l).completeLong = ((s.completeLong.setMem m).setEngine e).setCaptures l := by
  unfold State.completeLong
  simp only [State.setCaptures_link, State.setEngine_link, State.setMem_link]
  cases s.link.state with
  | idle => rfl
  | receiving _ _ => rfl
  | result _ _ => rfl
  | executing x =>
    cases x with
    | activate r n =>
      exact (apply_ite (fun u : State => ((u.setMem m).setEngine e).setCaptures l) ((s.definition r).recordCount ≤ n)
        ((s.setRegionState r .active).formResult .done []) s).symm
    | retire r a c v =>
      exact (apply_ite (fun u : State => ((u.setMem m).setEngine e).setCaptures l) (s.regionIdle r = true)
        ((s.setRegionState r .defined).formResult .done [byteOf a, byteOf c, byteOf v]) s).symm
    | flushPort a v w => cases w <;> rfl
    | restart g c v k wm wc => cases wm <;> cases wc <;> rfl

end

/-- A part at rest is so whatever its memory port, commit engine and capture queue hold. -/
theorem State.AtRest.setMem_setEngine_setCaptures {s : State} (h : s.AtRest) (m : MemPort) (e : CommitEngine)
    (l : List Capture) : (((s.setMem m).setEngine e).setCaptures l).AtRest where
  routers := h.routers
  link := by rw [State.completeLong_setMem_setEngine_setCaptures, h.link]

/-- The whole row, from rest, with an answer that is accepted and leaves a word UNANSWERED: the answer is recorded. -/
theorem exec_memoryAnswer_open {s : State} {tr : Transaction} (a : MemAnswer) (rest : s.AtRest)
    (out : s.mem.outstanding = some tr) (left : .unanswered ∈ answerFirst tr.answers (recorded tr.request a)) :
    exec (.memoryAnswer tr.tag a) s = .next (s.recordAnswers tr fun as => answerFirst as (recorded tr.request a)) := by
  rw [exec_memoryAnswer, s.memoryAnswer_accepted a out, State.takeAnswers_open _ _ _ left, State.recordAnswers_fields,
    (rest.setMem_setEngine_setCaptures ..).settle]

/-- Settles O21: an answer that is not accepted leaves the part at rest as it was; one that leaves a word UNANSWERED writes the
transaction's answers and the record of the engine it is handed to; and every answer falls on the first UNANSWERED word. -/
theorem answersAreRecordedInOrderOrDiscarded : Obligations.AnswersAreRecordedInOrderOrDiscarded := by
  refine ⟨fun tag a s rest other => ?discarded, ?recorded, fun m a done rest answered => answerFirst_append rest _ answered⟩
  case discarded => rw [exec_memoryAnswer, s.memoryAnswer_discarded a other, rest.settle]
  case recorded =>
    rintro tag a s tr done more rest out rfl answered answers left kept
    have first : answerFirst tr.answers (recorded tr.request a) = done ++ kept :: more :=
      answers ▸ answerFirst_append more _ answered
    refine ⟨_, exec_memoryAnswer_open a rest out ?_, ?_, State.recordAnswers_fields .., fun discard => ?_, fun p plain => ?_,
      fun commit keep job writing own => ?_, fun capture keep c cs front own => ?_⟩
    · rw [first]
      exact List.mem_append_right _ (List.mem_cons_of_mem _ left)
    · rw [State.recordAnswers_mem, first]
    · rw [State.recordAnswers_discard _ _ _ discard]
      exact ⟨rfl, rfl⟩
    · rw [State.recordAnswers_plain _ _ _ plain]
      exact ⟨rfl, rfl⟩
    · rw [State.recordAnswers_commit _ _ _ commit keep writing, own, first]
    · rw [State.recordAnswers_capture _ _ _ capture keep front, own, first]

end Sys2Proof.Machine

/-! SUPPORT. CLEAR WATCH and READ WATCH (07 R126, R127; 08 R159): the watch a byte names, what writing back a watch's own
value leaves, what each command's owner does with an index inside 0 to 7 and outside it, and the two rows. -/

namespace Sys2Proof.Machine

/-! ### The watch a byte names (07 R126, R127) -/

/-- A watch byte names the watch of its number. -/
theorem watchOfByte_eq {b : Byte} {i : WatchIx} (h : b.toNat = i.val) : watchOfByte b = some i := by
  unfold watchOfByte
  rw [dif_pos (h ▸ i.isLt)]
  exact congrArg some (Fin.ext h)

/-- A watch byte above 7 names no watch. -/
theorem watchOfByte_eq_none {b : Byte} (h : 7 < b.toNat) : watchOfByte b = none := by
  unfold watchOfByte
  exact dif_neg (Nat.not_lt.2 h)

/-! ### Writing a watch -/

/-- A table with a cell replaced by its own value is the same table. -/
@[simp] theorem put_cell_self {α : Type} {n : Nat} (v : Vector α n) (i : Fin n) : put v i (cell v i) = v :=
  Vector.set_getElem_self i.isLt

section
variable {s : State} {b : Byte} {i : WatchIx}

/-- Writing a watch with the value it has changes nothing. -/
theorem State.setWatch_self {w : Watch} (h : cell s.events.watches i = w) : s.setWatch i w = s := by
  subst h
  simp only [State.setWatch, put_cell_self]
  rfl

/-- Whether a router can move does not depend on the watches. -/
theorem State.movable_setWatch (s : State) (i : WatchIx) (w : Watch) : (s.setWatch i w).movable = s.movable := rfl

/-! ### CLEAR WATCH (07 R126) -/

/-- The row sends the command as one whole frame. -/
theorem exec_clearWatch (b : Byte) (s : State) : exec (.clearWatch b) s = .next (s.sendCommand (.clearWatch b)) := rfl

/-- A named watch goes to the UNUSED field values, and the reply is the state it had. -/
theorem State.doClearWatch_named (h : b.toNat = i.val) :
    s.doClearWatch b = (s.setWatch i .unusedValues, .done [codeOfWatchState (cell s.events.watches i).state]) := by
  simp only [State.doClearWatch, watchOfByte_eq h]

/-- An index above 7 is answered BAD_PARAM. -/
theorem State.doClearWatch_outside (h : 7 < b.toNat) : s.doClearWatch b = (s, .fail .badParam) := by
  simp only [State.doClearWatch, watchOfByte_eq_none h]

/-- The whole row for a named watch. -/
theorem exec_clearWatch_named (rest : s.AtRest) (ready : s.linkReady) (h : b.toNat = i.val) :
    exec (.clearWatch b) s = .next ((s.setWatch i .unusedValues).returns (.clearWatch b) .done
      [codeOfWatchState (cell s.events.watches i).state]) := by
  rw [exec_clearWatch, State.sendCommand_done ready ((s.movable_setWatch i _).trans rest.routers) rfl]
  exact fun x => State.doClearWatch_named (s := s.setLink x) h

/-- The whole row for an index above 7. -/
theorem exec_clearWatch_outside (rest : s.AtRest) (ready : s.linkReady) (h : 7 < b.toNat) :
    exec (.clearWatch b) s = .next (s.returns (.clearWatch b) .badParam []) := by
  rw [exec_clearWatch, State.sendCommand_fail ready rest]
  exact fun x => State.doClearWatch_outside (s := s.setLink x) h

/-- The whole row for a watch that is UNUSED already: nothing but its result. -/
theorem exec_clearWatch_unused (rest : s.AtRest) (ready : s.linkReady) (h : b.toNat = i.val)
    (unused : (cell s.events.watches i).state = .unused) (blank : s.unusedWatchesBlank) :
    exec (.clearWatch b) s = .next (s.returns (.clearWatch b) .done [0x00]) := by
  rw [exec_clearWatch_named rest ready h, State.setWatch_self (blank i unused), unused]
  rfl

/-! ### READ WATCH (07 R127) -/

/-- The row sends the command as one whole frame. -/
theorem exec_readWatch (b : Byte) (s : State) : exec (.readWatch b) s = .next (s.sendCommand (.readWatch b)) := rfl

/-- A named watch's bytes are the reply. -/
theorem State.doReadWatch_named (h : b.toNat = i.val) :
    s.doReadWatch b = (s, .done (watchBytes (cell s.events.watches i))) := by
  simp only [State.doReadWatch, watchOfByte_eq h]

/-- An index above 7 is answered BAD_PARAM. -/
theorem State.doReadWatch_outside (h : 7 < b.toNat) : s.doReadWatch b = (s, .fail .badParam) := by
  simp only [State.doReadWatch, watchOfByte_eq_none h]

/-- The whole row for a named watch. -/
theorem exec_readWatch_named (rest : s.AtRest) (ready : s.linkReady) (h : b.toNat = i.val) :
    exec (.readWatch b) s =
      .next (s.returns (.readWatch b) .done (watchBytes (cell s.events.watches i))) := by
  rw [exec_readWatch, State.sendCommand_done ready rest.routers rfl]
  exact fun x => State.doReadWatch_named (s := s.setLink x) h

/-- The whole row for an index above 7. -/
theorem exec_readWatch_outside (rest : s.AtRest) (ready : s.linkReady) (h : 7 < b.toNat) :
    exec (.readWatch b) s = .next (s.returns (.readWatch b) .badParam []) := by
  rw [exec_readWatch, State.sendCommand_fail ready rest]
  exact fun x => State.doReadWatch_outside (s := s.setLink x) h

end

/-- Settles O48: for each of the two commands, the row for an index above 7 and the row for a named watch; and writing the
UNUSED values over a watch that is UNUSED already changes nothing. -/
theorem watchesAreClearedAndRead : Obligations.WatchesAreClearedAndRead := by
  constructor
  · intro s b rest ready
    exact ⟨exec_clearWatch_outside rest ready, fun _ named => exec_clearWatch_named rest ready named,
      fun _ named => exec_clearWatch_unused rest ready named⟩
  · intro s b rest ready
    exact ⟨exec_readWatch_outside rest ready, fun _ named => exec_readWatch_named rest ready named⟩

end Sys2Proof.Machine

/-! SUPPORT. The check (08 R144) and IDENTIFY (08 R151, R161): the check of a run byte by byte and bit by bit, the run each kind of
frame, result and record is checked over, and the identity's bytes with the row that returns them. -/

namespace Sys2Proof.Machine

/-! ### The check of a run (08 R144) -/

/-- R144's step 1: before any byte, the value is 0xFF. -/
@[simp] theorem crc8_nil : crc8 [] = 0xFF#8 := rfl

/-- R144's steps 2 to 4 for a run's last byte: it is taken into the check of the bytes before it. -/
theorem crc8_concat (l : List Byte) (b : Byte) : crc8 (l ++ [b]) = crcByte (crc8 l) b := by
  unfold crc8
  rw [List.foldl_append, List.foldl_cons, List.foldl_nil]

/-- R144's steps 2 and 3: a byte is combined by exclusive-or, and eight rounds follow. -/
theorem crcByte_eq_iterate (v b : Byte) : crcByte v b = crcRound^[8] (v ^^^ b) := rfl

/-- R144's round, by the bit that is shifted out: bit 7 of the value. -/
theorem crcRound_eq (v : Byte) : crcRound v = if v.getLsbD 7 = true then (v <<< 1) ^^^ 0x2F#8 else v <<< 1 := by
  have top : v.msb = v.getLsbD 7 := BitVec.msb_eq_getLsbD_last v
  rw [crcRound, top]

/-! ### What is checked (08 R144) -/

/-- A COMMAND frame's check is over its code and parameters; the opener is no part of the run. -/
theorem commandBytes_eq (c : Command) :
    commandBytes c = (codeOfCommand c :: paramBytes c) ++ [crc8 (codeOfCommand c :: paramBytes c)] := rfl

/-- A result's check is over its completion code, length and data. -/
theorem resultBytes_eq (c : Completion) (data : List Byte) :
    resultBytes c data = ([codeOfCompletion c, BitVec.ofNat 8 data.length] ++ data) ++
      [crc8 ([codeOfCompletion c, BitVec.ofNat 8 data.length] ++ data)] := rfl

/-- The status record's check is over its seven bytes. -/
theorem statusBytes_eq (s : State) : ∃ record : List Byte, record.length = 7 ∧ statusBytes s = record ++ [crc8 record] := by
  refine ⟨_, ?seven, rfl⟩
  case seven => simp only [bytes2, List.length_append, List.length_cons, List.length_nil]

/-- Settles O32: the check of a run from its start, its last byte and its round; the runs the link's three check bytes are over;
and the manual's three examples, evaluated. -/
theorem theCheckIsCrc8 : Obligations.TheCheckIsCrc8 := by
  refine ⟨crc8_nil, fun l b => ?lastByte, crcRound_eq, commandBytes_eq, resultBytes_eq, statusBytes_eq, ?identify, ?activate,
    ?done⟩
  case lastByte => rw [crc8_concat, crcByte_eq_iterate]
  case identify => simp [commandBytes_eq, codeOfCommand, paramBytes, crc8, crcByte, crcRound_eq]
  case activate => simp [commandBytes_eq, codeOfCommand, paramBytes, crc8, crcByte, crcRound_eq]
  case done => simp [resultBytes_eq, codeOfCompletion, crc8, crcByte, crcRound_eq]

/-! ### IDENTIFY (08 R151, R161) -/

/-- Part code, revision and capacities, byte by byte. -/
theorem identityBytes_eq : identityBytes = [0x34, 0x16, 0x01, 0x03, 0x10, 0x10, 0x00, 0x10, 0x04, 0x08, 0x20] := by decide

/-- The row sends the command as one whole frame. -/
theorem exec_identify (s : State) : exec .identify s = .next (s.sendCommand .identify) := rfl

/-- No owner acts on IDENTIFY: the reply is the identity, whatever the state. -/
theorem State.carryOut_identify (s : State) : s.carryOut .identify = (s, .done identityBytes) := rfl

/-- Settles O39: IDENTIFY leaves a part at rest as it was, and its result holds the identity. -/
theorem identifyReturnsThePartsIdentity : Obligations.IdentifyReturnsThePartsIdentity := by
  intro s rest ready
  rw [exec_identify, State.sendCommand_done ready rest.routers rfl fun x => (s.setLink x).carryOut_identify, identityBytes_eq]

end Sys2Proof.Machine

/-! SUPPORT. Which fields of the state each shared operation may write (95: a step is whole), said once per operation, so that a law
about other fields passes through it; and what a step is made of: an arrival's own effect, then moves of the routers, completions
and expiries. -/

namespace Sys2Proof.Machine

/-! ### The fields an operation may write -/

/-- The fields of the state, the memory port's taken apart: each requester's pending request, the outstanding transaction, and the
arbiter's own registers. -/
inductive Field where
  | pending | line | timebase | regions | versions | ports | pool | engine | views | captures
  | plain | commit | capture | outstanding | arbiter | events | link | choices
deriving DecidableEq

/-- The two states have the same value of a field. -/
def State.Same (s t : State) : Field → Prop
  | .pending => t.pending = s.pending
  | .line => t.hardResetLine = s.hardResetLine
  | .timebase => t.timebase = s.timebase
  | .regions => t.regions = s.regions
  | .versions => t.versions = s.versions
  | .ports => t.ports = s.ports
  | .pool => t.pool = s.pool
  | .engine => t.engine = s.engine
  | .views => t.views = s.views
  | .captures => t.captures = s.captures
  | .plain => t.mem.plain = s.mem.plain
  | .commit => t.mem.commit = s.mem.commit
  | .capture => t.mem.capture = s.mem.capture
  | .outstanding => t.mem.outstanding = s.mem.outstanding
  | .arbiter => (t.mem.ring, t.mem.tagCounter, t.mem.issued) = (s.mem.ring, s.mem.tagCounter, s.mem.issued)
  | .events => t.events = s.events
  | .link => t.link = s.link
  | .choices => t.choices = s.choices

theorem State.Same.refl (s : State) (f : Field) : s.Same s f := by
  cases f <;> rfl

theorem State.Same.trans {s t u : State} {f : Field} (h : s.Same t f) (k : t.Same u f) : s.Same u f := by
  cases f <;> exact Eq.trans k h

/-- From the one state to the other no field but these is written. -/
structure State.Writes (fs : List Field) (s t : State) : Prop where
  same : ∀ f, f ∉ fs → s.Same t f

namespace State.Writes

protected theorem refl (fs : List Field) (s : State) : s.Writes fs s := ⟨fun f _ => .refl s f⟩

variable {fs gs : List Field} {s t u : State}

theorem mono (h : s.Writes fs t) (le : ∀ f ∈ fs, f ∈ gs := by decide) : s.Writes gs t :=
  ⟨fun f n => h.same f fun m => n (le f m)⟩

/-- One operation after another, each with its own fields. -/
theorem seq (h : s.Writes fs t) (k : t.Writes gs u) : s.Writes (fs ++ gs) u := ⟨fun f n =>
  (h.same f fun m => n (List.mem_append_left _ m)).trans (k.same f fun m => n (List.mem_append_right _ m))⟩

protected theorem trans (h : s.Writes fs t) (k : t.Writes fs u) : s.Writes fs u :=
  ⟨fun f n => (h.same f n).trans (k.same f n)⟩

/-- A fold of operations with the same fields. -/
theorem foldl {α : Type} {g : State → α → State} (hg : ∀ (s : State) (x : α), s.Writes fs (g s x)) (l : List α) (s : State) :
    s.Writes fs (l.foldl g s) := by
  induction l generalizing s with
  | nil => exact .refl fs s
  | cons x l ih => exact (hg s x).trans (ih _)

theorem pending (h : s.Writes fs t) (n : Field.pending ∉ fs := by decide) : t.pending = s.pending := h.same _ n

theorem line (h : s.Writes fs t) (n : Field.line ∉ fs := by decide) : t.hardResetLine = s.hardResetLine := h.same _ n

theorem timebase (h : s.Writes fs t) (n : Field.timebase ∉ fs := by decide) : t.timebase = s.timebase := h.same _ n

theorem regions (h : s.Writes fs t) (n : Field.regions ∉ fs := by decide) : t.regions = s.regions := h.same _ n

theorem versions (h : s.Writes fs t) (n : Field.versions ∉ fs := by decide) : t.versions = s.versions := h.same _ n

theorem ports (h : s.Writes fs t) (n : Field.ports ∉ fs := by decide) : t.ports = s.ports := h.same _ n

theorem pool (h : s.Writes fs t) (n : Field.pool ∉ fs := by decide) : t.pool = s.pool := h.same _ n

theorem engine (h : s.Writes fs t) (n : Field.engine ∉ fs := by decide) : t.engine = s.engine := h.same _ n

theorem views (h : s.Writes fs t) (n : Field.views ∉ fs := by decide) : t.views = s.views := h.same _ n

theorem captures (h : s.Writes fs t) (n : Field.captures ∉ fs := by decide) : t.captures = s.captures := h.same _ n

theorem plain (h : s.Writes fs t) (n : Field.plain ∉ fs := by decide) : t.mem.plain = s.mem.plain := h.same _ n

theorem commit (h : s.Writes fs t) (n : Field.commit ∉ fs := by decide) : t.mem.commit = s.mem.commit := h.same _ n

theorem capture (h : s.Writes fs t) (n : Field.capture ∉ fs := by decide) : t.mem.capture = s.mem.capture := h.same _ n

theorem outstanding (h : s.Writes fs t) (n : Field.outstanding ∉ fs := by decide) : t.mem.outstanding = s.mem.outstanding := h.same _ n

theorem events (h : s.Writes fs t) (n : Field.events ∉ fs := by decide) : t.events = s.events := h.same _ n

theorem link (h : s.Writes fs t) (n : Field.link ∉ fs := by decide) : t.link = s.link := h.same _ n

theorem choices (h : s.Writes fs t) (n : Field.choices ∉ fs := by decide) : t.choices = s.choices := h.same _ n

theorem arbiter (h : s.Writes fs t) (n : Field.arbiter ∉ fs := by decide) :
    t.mem.ring = s.mem.ring ∧ t.mem.tagCounter = s.mem.tagCounter ∧ t.mem.issued = s.mem.issued := by
  have e : (t.mem.ring, t.mem.tagCounter, t.mem.issued) = (s.mem.ring, s.mem.tagCounter, s.mem.issued) := h.same _ n
  simpa using e

end State.Writes

section
variable (s : State)

/-! ### The writers -/

theorem State.setPool_writes (x : Pool) : s.Writes [.pool] (s.setPool x) := by
  refine ⟨fun f n => ?_⟩; cases f
  case pool => exact absurd (by decide) n
  all_goals rfl

theorem State.setViews_writes (p : Port) (x : PortViews) : s.Writes [.views] (s.setViews p x) := by
  refine ⟨fun f n => ?_⟩; cases f
  case views => exact absurd (by decide) n
  all_goals rfl

theorem State.setCaptures_writes (x : List Capture) : s.Writes [.captures] (s.setCaptures x) := by
  refine ⟨fun f n => ?_⟩; cases f
  case captures => exact absurd (by decide) n
  all_goals rfl

theorem State.setPort_writes (p : Port) (x : PortState) : s.Writes [.ports] (s.setPort p x) := by
  refine ⟨fun f n => ?_⟩; cases f
  case ports => exact absurd (by decide) n
  all_goals rfl

theorem State.setEvents_writes (x : EventUnit) : s.Writes [.events] (s.setEvents x) := by
  refine ⟨fun f n => ?_⟩; cases f
  case events => exact absurd (by decide) n
  all_goals rfl

theorem State.setVersions_writes (x : Vector VersionEntry 4096) : s.Writes [.versions] (s.setVersions x) := by
  refine ⟨fun f n => ?_⟩; cases f
  case versions => exact absurd (by decide) n
  all_goals rfl

theorem State.setRegions_writes (x : Vector Region 16) : s.Writes [.regions] (s.setRegions x) := by
  refine ⟨fun f n => ?_⟩; cases f
  case regions => exact absurd (by decide) n
  all_goals rfl

theorem State.setEngine_writes (x : CommitEngine) : s.Writes [.engine] (s.setEngine x) := by
  refine ⟨fun f n => ?_⟩; cases f
  case engine => exact absurd (by decide) n
  all_goals rfl

theorem State.setLink_writes (x : Link) : s.Writes [.link] (s.setLink x) := by
  refine ⟨fun f n => ?_⟩; cases f
  case link => exact absurd (by decide) n
  all_goals rfl

theorem State.setChoices_writes (n : Nat) : s.Writes [.choices] (s.setChoices n) := by
  refine ⟨fun f n => ?_⟩; cases f
  case choices => exact absurd (by decide) n
  all_goals rfl

theorem State.setTimebase_writes (x : Word) : s.Writes [.timebase] (s.setTimebase x) := by
  refine ⟨fun f n => ?_⟩; cases f
  case timebase => exact absurd (by decide) n
  all_goals rfl

theorem State.setHardResetLine_writes (x : Bool) : s.Writes [.line] (s.setHardResetLine x) := by
  refine ⟨fun f n => ?_⟩; cases f
  case line => exact absurd (by decide) n
  all_goals rfl

theorem State.setPlainRequest_writes (p : Port) (q : Option MemRequest) : s.Writes [.plain] (s.setPlainRequest p q) := by
  refine ⟨fun f n => ?_⟩; cases f
  case plain => exact absurd (by decide) n
  all_goals rfl

theorem State.setCommitRequest_writes (q : Option MemRequest) : s.Writes [.commit] (s.setCommitRequest q) := by
  refine ⟨fun f n => ?_⟩; cases f
  case commit => exact absurd (by decide) n
  all_goals rfl

theorem State.setCaptureRequest_writes (q : Option MemRequest) : s.Writes [.capture] (s.setCaptureRequest q) := by
  refine ⟨fun f n => ?_⟩; cases f
  case capture => exact absurd (by decide) n
  all_goals rfl

/-- Writing the outstanding transaction alone. -/
theorem State.setOutstanding_writes (o : Option Transaction) :
    s.Writes [.outstanding] (s.setMem { s.mem with outstanding := o }) := by
  refine ⟨fun f n => ?_⟩; cases f
  case outstanding => exact absurd (by decide) n
  all_goals rfl

theorem State.post_writes (body : EventBody) (r : RegionId) (p : Port) (k : Nat) (v : Half) :
    s.Writes [.events] (s.post body r p k v) := s.setEvents_writes _

/-! ### Ports and router -/

theorem State.finishPiece_writes (p : Port) (n : Nat) (st : Status) (ws : List Word) :
    s.Writes [.ports] (s.finishPiece p n st ws) := s.setPort_writes ..

theorem State.awaitPiece_writes (p : Port) (n : Nat) (x : Option Spot) (w : Wait) : s.Writes [.ports] (s.awaitPiece p n x w) :=
  s.setPort_writes ..

theorem State.giveBack_writes (p : Port) : s.Writes [.ports] (s.giveBack p) := s.setPort_writes ..

theorem State.respond_writes (p : Port) (r : Request) (rest : List Request) : s.Writes [.ports] (s.respond p r rest) :=
  s.setPort_writes ..

theorem State.plainPiece_writes (p : Port) (r : Request) (k n : Nat) (x : Option Spot) :
    s.Writes [.plain, .ports] (s.plainPiece p r k n x) :=
  (s.setPlainRequest_writes ..).seq (State.awaitPiece_writes ..)

theorem State.foreignWrite_writes (p : Port) (x : Spot) (n : Nat) : s.Writes [.events, .ports] (s.foreignWrite p x n) :=
  (s.post_writes ..).seq (State.finishPiece_writes ..)

/-! ### Staging pool -/

theorem State.setBuffer_writes (b : BufId) (x : Buffer) : s.Writes [.pool] (s.setBuffer b x) := s.setPool_writes _

theorem State.closeBuffer_writes (b : BufId) : s.Writes [.pool, .captures] (s.closeBuffer b) :=
  (s.setPool_writes _).seq (State.setCaptures_writes ..)

theorem State.freeGathering_writes (b : BufId) : s.Writes [.pool] (s.freeGathering b) := s.setPool_writes _

theorem State.makePreTorn_writes (r : RegionId) (k : Nat) (x : Option BufId) : s.Writes [.pool] (s.makePreTorn r k x) := by
  refine State.Writes.foldl (fun s b => ?_) _ s
  dsimp only
  split
  · exact s.setBuffer_writes ..
  · exact .refl _ s

theorem State.stageIn_writes (b : BufId) (x : Spot) (ws : List WriteWord) : s.Writes [.pool, .captures] (s.stageIn b x ws) := by
  unfold State.stageIn
  dsimp only
  split
  · exact ((s.setBuffer_writes ..).seq (State.closeBuffer_writes ..)).mono
  · exact (s.setBuffer_writes ..).mono

theorem State.openBuffer_writes (p : Port) (x : Spot) (b : BufId) : s.Writes [.pool] (s.openBuffer p x b) := s.setPool_writes _

theorem State.openUpdate_writes (p : Port) (x : Spot) (ws : List WriteWord) : s.Writes [.pool, .captures] (s.openUpdate p x ws) := by
  unfold State.openUpdate
  split
  · exact .refl _ s
  · exact ((s.openBuffer_writes ..).seq (State.stageIn_writes ..)).mono

theorem State.examineHold_writes (h : HeldWrite) : s.Writes [.pool, .captures, .ports] (s.examineHold h) := by
  unfold State.examineHold
  split
  · exact (((s.setPool_writes _).seq (State.openUpdate_writes ..)).seq (State.finishPiece_writes ..)).mono
  · exact .refl _ s

theorem State.examineHolds_writes : s.Writes [.pool, .captures, .ports] s.examineHolds :=
  State.Writes.foldl (fun s h => s.examineHold_writes h) _ s

theorem State.examineIf_writes (left : Bool) : s.Writes [.pool, .captures, .ports] (s.examineIf left) := by
  unfold State.examineIf
  split
  · exact s.examineHolds_writes
  · exact .refl _ s

theorem State.abandonBuffer_writes (c : AbandonCause) (b : BufId) : s.Writes [.pool, .events] (s.abandonBuffer c b) :=
  (s.freeGathering_writes b).seq (State.post_writes ..)

theorem State.abandonAll_writes (p : Port) (c : AbandonCause) : s.Writes [.pool, .events] (s.abandonAll p c) :=
  State.Writes.foldl (fun s b => s.abandonBuffer_writes c b) _ s

theorem State.refuseHold_writes (c : RefusedCause) (h : HeldWrite) : s.Writes [.pool, .events, .ports] (s.refuseHold c h) :=
  ((s.setPool_writes _).seq (State.post_writes ..)).seq (State.finishPiece_writes ..)

theorem State.tearThrough_writes (p : Port) (x : Spot) : s.Writes [.versions, .pool, .events] (s.tearThrough p x) :=
  ((s.setVersions_writes _).seq (State.makePreTorn_writes ..)).seq (State.post_writes ..)

theorem State.earlyClose_writes (p : Port) : s.Writes [.pool, .captures] (s.earlyClose p) := by
  unfold State.earlyClose
  split
  · exact .refl _ s
  · exact s.closeBuffer_writes _

/-- STAGING_EXHAUSTED, naming the limit and the region's policy (03 R52). -/
def State.postExhausted (s : State) (p : Port) (x : Spot) : State :=
  s.post (.stagingExhausted (if s.freeBuffer.isNone then .pool else .port) (s.definition x.region).policy) x.region p x.record
    (s.version x.region x.record)

/-- The piece becomes the port's held write, last in the hold list, now (03 R55). -/
def State.holdPiece (s : State) (p : Port) (x : Spot) (ws : List WriteWord) : State :=
  (s.setPool { s.pool with holds := s.pool.holds ++ [⟨p, x, ws, s.timebase⟩] }).awaitPiece p ws.length (some x) .held

/-- What the exhaustion policy does with a piece that may not open (03 R53 to R55). -/
theorem State.exhausted_eq (p : Port) (x : Spot) (a : Word) (ws : List WriteWord) : s.exhausted p x a ws =
    match (s.definition x.region).policy with
    | .through => (((s.postExhausted p x).tearThrough p x).setPlainRequest p (some (.write a ws))).awaitPiece p ws.length (some x)
        .memory
    | .refuse => (s.postExhausted p x).finishPiece p ws.length .refused []
    | .closeOldest => (((s.postExhausted p x).earlyClose p).holdPiece p x ws).examineHolds := by
  unfold State.exhausted State.postExhausted
  dsimp only
  cases (s.definition x.region).policy <;> rfl

theorem State.postExhausted_writes (p : Port) (x : Spot) : s.Writes [.events] (s.postExhausted p x) := s.post_writes ..

theorem State.holdPiece_writes (p : Port) (x : Spot) (ws : List WriteWord) : s.Writes [.pool, .ports] (s.holdPiece p x ws) :=
  (s.setPool_writes _).seq (State.awaitPiece_writes ..)

theorem State.exhausted_writes (p : Port) (x : Spot) (a : Word) (ws : List WriteWord) :
    s.Writes [.pool, .captures, .ports, .plain, .versions, .events] (s.exhausted p x a ws) := by
  rw [s.exhausted_eq]
  split
  · exact ((((s.postExhausted_writes ..).seq (State.tearThrough_writes ..)).seq (State.setPlainRequest_writes ..)).seq
      (State.awaitPiece_writes ..)).mono
  · exact ((s.postExhausted_writes ..).seq (State.finishPiece_writes ..)).mono
  · exact ((((s.postExhausted_writes ..).seq (State.earlyClose_writes ..)).seq (State.holdPiece_writes ..)).seq
      (State.examineHolds_writes _)).mono

theorem State.stagePiece_writes (p : Port) (x : Spot) (a : Word) (ws : List WriteWord) :
    s.Writes [.pool, .captures, .ports, .plain, .versions, .events] (s.stagePiece p x a ws) := by
  unfold State.stagePiece
  dsimp only
  split
  · exact (s.finishPiece_writes ..).mono
  · split
    · exact (((s.stageIn_writes ..).seq (State.finishPiece_writes ..)).seq (State.examineIf_writes ..)).mono
    · split
      · exact (((s.openUpdate_writes ..).seq (State.finishPiece_writes ..)).seq (State.examineIf_writes ..)).mono
      · exact s.exhausted_writes ..

/-! ### Views -/

theorem State.lowerWaits_writes (l : List BufId) : s.Writes [.pool] (s.lowerWaits l) :=
  State.Writes.foldl (fun s _ => s.setBuffer_writes ..) _ s

theorem State.endCapture_writes (c : Capture) : s.Writes [.captures, .pool] (s.endCapture c) :=
  (s.setCaptures_writes _).seq (State.lowerWaits_writes ..)

theorem State.releaseView_writes (p : Port) (v : ViewIx) :
    s.Writes [.views, .captures, .pool, .capture] (s.releaseView p v) := by
  unfold State.releaseView
  dsimp only
  split
  · exact (s.setViews_writes ..).mono
  · split
    · exact ((s.setViews_writes ..).seq (State.endCapture_writes ..)).mono
    · exact (((s.setViews_writes ..).seq (State.setCaptureRequest_writes ..)).seq (State.endCapture_writes ..)).mono
    · exact ((s.setViews_writes ..).seq (State.setCaptures_writes ..)).mono

theorem State.releaseAndGiveBack_writes (pv : Port × ViewIx) :
    s.Writes [.views, .captures, .pool, .capture, .ports] (s.releaseAndGiveBack pv) := by
  unfold State.releaseAndGiveBack
  dsimp only
  have h := s.releaseView_writes pv.1 pv.2
  split
  · exact h.mono
  · split
    · exact (h.seq (State.giveBack_writes ..)).mono
    · exact h.mono

theorem State.releaseAll_writes (l : List (Port × ViewIx)) :
    s.Writes [.views, .captures, .pool, .capture, .ports] (s.releaseAll l) :=
  State.Writes.foldl (fun s x => s.releaseAndGiveBack_writes x) _ s

theorem State.giveBackAwaiting_writes (r : RegionId) : s.Writes [.ports] (s.giveBackAwaiting r) := by
  refine State.Writes.foldl (fun s p => ?_) _ s
  split
  · exact s.giveBack_writes p
  · exact .refl _ s

theorem State.openView_writes (p : Port) (v : ViewIx) (r : RegionId) (k : Nat) :
    s.Writes [.views, .captures] (s.openView p v r k) := by
  unfold State.openView
  dsimp only
  split
  · exact (s.setViews_writes ..).mono
  · exact (s.setViews_writes ..).seq (State.setCaptures_writes ..)

theorem State.answerFromView_writes (p : Port) (v : ViewIx) (x : Spot) (n : Nat) :
    s.Writes [.ports, .views, .captures, .pool, .capture] (s.answerFromView p v x n) := by
  have h : s.Writes [.ports, .views] ((s.finishPiece p n (statusOfMark (s.view p v).torn)
      (viewWords (s.definition x.region) (s.view p v) x.offset n)).setUseList p ((s.views.get p).useList.erase v ++ [v])) :=
    (s.finishPiece_writes ..).seq (State.setViews_writes ..)
  unfold State.answerFromView
  dsimp only
  split
  · exact (h.seq (State.releaseView_writes ..)).mono
  · exact h.mono

theorem State.serveFromView_writes (p : Port) (v : ViewIx) (x : Spot) (n : Nat) :
    s.Writes [.ports, .views, .captures, .pool, .capture] (s.serveFromView p v x n) := by
  unfold State.serveFromView
  split
  · exact s.answerFromView_writes ..
  · exact (s.awaitPiece_writes ..).mono

theorem State.viewPiece_writes (p : Port) (x : Spot) (n : Nat) :
    s.Writes [.ports, .views, .captures, .pool, .capture] (s.viewPiece p x n) := by
  unfold State.viewPiece
  split
  · exact s.serveFromView_writes ..
  · split
    · exact (s.awaitPiece_writes ..).mono
    · exact (((s.releaseView_writes ..).seq (State.openView_writes ..)).seq (State.serveFromView_writes ..)).mono

theorem State.readOwn_writes (p : Port) (x : Spot) (n : Nat) (a : Word) : s.Writes [.plain, .ports] (s.readOwn p x n a) := by
  unfold State.readOwn
  dsimp only
  split
  · exact (s.finishPiece_writes ..).mono
  · exact (s.setPlainRequest_writes ..).seq (State.awaitPiece_writes ..)

/-- The view that a capture fills, as it stands filled. -/
theorem State.setView_writes (p : Port) (v : ViewIx) (x : View) : s.Writes [.views] (s.setView p v x) := s.setViews_writes ..

theorem State.completeCapture_writes (c : Capture) :
    s.Writes [.captures, .pool, .views, .ports, .capture] (s.completeCapture c) := by
  unfold State.completeCapture
  dsimp only
  have h := s.endCapture_writes c
  split
  · exact h.mono
  · next v _ =>
    have k := fun x => h.seq (State.setView_writes _ c.port v x)
    split
    · exact (k _).mono
    · split
      · exact (k _).mono
      · split
        · exact ((k _).seq (State.answerFromView_writes ..)).mono
        · exact (k _).mono

theorem State.faultCapture_writes (c : Capture) :
    s.Writes [.captures, .pool, .views, .ports, .capture, .events] (s.faultCapture c) := by
  unfold State.faultCapture
  dsimp only
  have h := s.endCapture_writes c
  split
  · exact h.mono
  · have k := h.seq (State.releaseView_writes _ c.port ‹_›)
    split
    · exact (k.seq (State.post_writes ..)).mono
    · split
      · exact ((k.seq (State.finishPiece_writes ..)).seq (State.post_writes ..)).mono
      · exact (k.seq (State.post_writes ..)).mono

/-! ### A move of a router -/

/-- What a move of a router may write. -/
def routed : List Field := [.ports, .pool, .views, .captures, .plain, .capture, .versions, .events]

theorem State.handPiece_writes (p : Port) (r : Request) (k n : Nat) (x : Option Spot) :
    s.Writes routed (s.handPiece p r k n x) := by
  unfold State.handPiece
  split
  · exact (s.plainPiece_writes ..).mono
  · dsimp only
    split
    · split
      · exact (s.readOwn_writes ..).mono
      · exact (s.stagePiece_writes ..).mono
    · split
      · split
        · exact (s.viewPiece_writes ..).mono
        · exact (s.plainPiece_writes ..).mono
      · exact (s.foreignWrite_writes ..).mono

theorem State.advance_writes (p : Port) : s.Writes routed (s.advance p) := by
  unfold State.advance
  split
  · exact .refl _ s
  · dsimp only
    split
    · exact (s.respond_writes ..).mono
    · split
      · exact (s.finishPiece_writes ..).mono
      · exact s.handPiece_writes ..

/-! ### Link, commit engine and memory port -/

theorem State.formResult_writes (c : Completion) (d : List Byte) : s.Writes [.link] (s.formResult c d) := s.setLink_writes _

theorem State.completeLong_writes : s.Writes [.regions, .link] s.completeLong := by
  rw [s.completeLong_fields]
  exact (s.setRegions_writes _).seq (State.setLink_writes ..)

theorem State.mapExecuting_writes (f : Executing → Executing) : s.Writes [.link] (s.mapExecuting f) := by
  unfold State.mapExecuting
  split
  case h_4 => exact s.setLink_writes _
  all_goals exact .refl _ s

theorem State.evaluateWatch_writes (c : Committed) (i : WatchIx) : s.Writes [.events] (s.evaluateWatch c i) := by
  unfold State.evaluateWatch
  dsimp only
  split
  · exact .refl _ s
  · split
    · exact (s.setEvents_writes _).trans (State.post_writes ..)
    · exact .refl _ s

theorem State.evaluateWatches_writes (c : Committed) : s.Writes [.events] (s.evaluateWatches c) :=
  State.Writes.foldl (fun s i => s.evaluateWatch_writes c i) _ s

theorem State.settleRecord_writes (b : BufId) (faulted : Bool) : s.Writes [.versions, .pool, .events] (s.settleRecord b faulted) := by
  unfold State.settleRecord
  dsimp only
  split
  · exact ((s.setVersions_writes _).seq (State.makePreTorn_writes ..)).seq (State.post_writes ..)
  · exact (s.setVersions_writes _).mono

theorem State.freeCommitted_writes (b : BufId) : s.Writes [.pool] (s.freeCommitted b) := s.setPool_writes _

theorem State.takeCommit_writes : s.Writes [.pool, .commit, .engine] s.takeCommit := by
  unfold State.takeCommit
  split
  · exact .refl _ s
  · exact .refl _ s
  · split
    · exact .refl _ s
    · exact ((s.setBuffer_writes ..).seq (State.setCommitRequest_writes ..)).seq (State.setEngine_writes ..)

/-- The table's, pool's and event unit's part of a completion (04 R76 to R78): the record settled and the watches evaluated. -/
def State.settledCommit (s : State) (job : CommitJob) : State :=
  (s.settleRecord job.buffer (job.answers.any Answer.isFault)).evaluateWatches
    { region := (s.buffer job.buffer).region, record := (s.buffer job.buffer).record, writer := (s.buffer job.buffer).writer,
      version := (s.settleRecord job.buffer (job.answers.any Answer.isFault)).version (s.buffer job.buffer).region
        (s.buffer job.buffer).record
      first := job.first, words := job.words, answers := job.answers }

/-- A completion up to the examination of the held writes (04 R79): the buffer FREE, the commit counted and the engine IDLE. -/
def State.freedCommit (s : State) (job : CommitJob) : State :=
  (((s.settledCommit job).freeCommitted job.buffer).mapExecuting fun e => e.afterCommit (s.buffer job.buffer).region).setEngine .idle

theorem State.completeCommit_eq (job : CommitJob) : s.completeCommit job = (s.freedCommit job).examineHolds.takeCommit := rfl

theorem State.settledCommit_writes (job : CommitJob) : s.Writes [.versions, .pool, .events] (s.settledCommit job) :=
  ((s.settleRecord_writes ..).seq (State.evaluateWatches_writes ..)).mono

theorem State.freedCommit_writes (job : CommitJob) :
    s.Writes [.versions, .pool, .events, .link, .engine] (s.freedCommit job) :=
  ((((s.settledCommit_writes job).seq (State.freeCommitted_writes ..)).seq (State.mapExecuting_writes ..)).seq
    (State.setEngine_writes ..)).mono

theorem State.completeCommit_writes (job : CommitJob) :
    s.Writes [.versions, .pool, .events, .link, .engine, .captures, .ports, .commit] (s.completeCommit job) := by
  rw [s.completeCommit_eq]
  exact (((s.freedCommit_writes job).seq (State.examineHolds_writes _)).seq (State.takeCommit_writes _)).mono

theorem State.requestCapture_writes : s.Writes [.captures, .capture] s.requestCapture := by
  unfold State.requestCapture
  split
  · exact .refl _ s
  · split
    · exact .refl _ s
    · exact (s.setCaptures_writes _).seq (State.setCaptureRequest_writes ..)

theorem State.tellGrant_writes (q : Requester) : s.Writes [.engine, .captures] (s.tellGrant q) := by
  unfold State.tellGrant
  split
  · exact .refl _ s
  · split
    · exact .refl _ s
    · exact (s.setEngine_writes _).mono
    · exact .refl _ s
  · split
    · exact .refl _ s
    · exact (s.setCaptures_writes _).mono

theorem State.setMem_writes (m : MemPort) : s.Writes [.plain, .commit, .capture, .outstanding, .arbiter] (s.setMem m) := by
  refine ⟨fun f n => ?_⟩; cases f
  case plain | commit | capture | outstanding | arbiter => exact absurd (by decide) n
  all_goals rfl

theorem State.grantTo_writes (q : Requester) (t : MemRequest) :
    s.Writes [.plain, .commit, .capture, .outstanding, .arbiter, .engine, .captures] (s.grantTo q t) :=
  (s.setMem_writes _).seq (State.tellGrant_writes ..)

theorem State.grant_writes : s.Writes [.plain, .commit, .capture, .outstanding, .arbiter, .engine, .captures] s.grant := by
  unfold State.grant
  split
  · exact .refl _ s
  · split
    · exact .refl _ s
    · split
      · exact .refl _ s
      · exact s.grantTo_writes ..

theorem State.handOn_writes (q : Requester) (f : List Answer → List Answer) : s.Writes [.engine, .captures] (s.handOn q f) := by
  rw [s.handOn_fields]
  exact (s.setEngine_writes _).seq (State.setCaptures_writes ..)

theorem State.recordAnswers_writes (t : Transaction) (f : List Answer → List Answer) :
    s.Writes [.outstanding, .engine, .captures] (s.recordAnswers t f) := by
  unfold State.recordAnswers
  dsimp only
  split
  · exact (s.setOutstanding_writes _).mono
  · exact (s.setOutstanding_writes _).seq (State.handOn_writes ..)

theorem State.endPlain_writes (p : Port) (as : List Answer) : s.Writes [.ports] (s.endPlain p as) := by
  unfold State.endPlain
  split
  · exact .refl _ s
  · split
    · exact s.finishPiece_writes ..
    · exact s.finishPiece_writes ..
    · exact .refl _ s
    · exact .refl _ s
    · exact .refl _ s

theorem State.endRead_writes : s.Writes [.captures, .pool, .views, .ports, .capture, .events, .link] s.endRead := by
  unfold State.endRead
  split
  · exact .refl _ s
  · refine (State.Writes.seq (fs := [.captures, .pool, .views, .ports, .capture, .events]) ?_ (State.mapExecuting_writes ..)).mono
    split
    · exact s.faultCapture_writes _
    · exact (s.completeCapture_writes _).mono

/-- The memory port in IDLE; nothing else changed. -/
def State.idlePort (s : State) : State := s.setMem { s.mem with outstanding := none }

theorem State.idlePort_writes : s.Writes [.outstanding] s.idlePort := s.setOutstanding_writes none

@[simp] theorem State.idlePort_outstanding : s.idlePort.mem.outstanding = none := rfl

/-- Everything the end of a transaction can do: the port goes to IDLE, and the owner that is told goes on (06 R116, R117). -/
theorem State.endTransaction_cases (q : Requester) (as : List Answer) (d : Bool) :
    s.endTransaction q as d = s.idlePort ∨
    (∃ p, q = .plain p ∧ d = false ∧ s.endTransaction q as d = s.idlePort.endPlain p as) ∨
    (∃ job, q = .commit ∧ d = false ∧ s.engine = .writing job ∧ s.endTransaction q as d = s.idlePort.completeCommit job) ∨
    (q = .capture ∧ d = false ∧ s.endTransaction q as d = s.idlePort.endRead) := by
  cases d with
  | true => exact .inl rfl
  | false =>
    cases q with
    | plain p => exact .inr (.inl ⟨p, rfl, rfl, rfl⟩)
    | capture => exact .inr (.inr (.inr ⟨rfl, rfl, rfl⟩))
    | commit =>
      have told : s.endTransaction .commit as false = match s.engine with
          | .idle => s.idlePort
          | .requesting _ => s.idlePort
          | .writing job => s.idlePort.completeCommit job := rfl
      rw [told]
      cases s.engine with
      | idle => exact .inl rfl
      | requesting job => exact .inl rfl
      | writing job => exact .inr (.inr (.inl ⟨job, rfl, rfl, rfl, rfl⟩))

/-- An answer leaves the transaction outstanding with what it recorded, or it is the last and the transaction ends (06 R113). -/
theorem State.takeAnswers_eq (t : Transaction) (f : List Answer → List Answer) : s.takeAnswers t f =
    if allAnswered (f t.answers) then (s.recordAnswers t f).endTransaction t.requester (f t.answers) t.discard
    else s.recordAnswers t f := rfl

end

end Sys2Proof.Machine

/-! SUPPORT. What a step is made of (95), said once: the arrival's own effect, alone or followed by the routers' moves and a long
command's completion; and how a law that each part keeps is kept by every step. -/

namespace Sys2Proof.Machine

/-! ### Changes of the link alone (08 R138 to R149) -/

/-- The link state holds no executing command. -/
def LinkState.Unexecuting (x : LinkState) : Prop := ∀ e, x ≠ .executing e

/-- The link alone differs, and it holds the same executing command as before, or none before and after. -/
structure State.LinkOnly (s t : State) : Prop where
  link : t = s.setLink t.link
  state : t.link.state = s.link.state ∨ (s.link.state.Unexecuting ∧ t.link.state.Unexecuting)

namespace State.LinkOnly

variable {s t u : State}

protected theorem refl (s : State) : s.LinkOnly s := ⟨rfl, .inl rfl⟩

protected theorem trans (h : s.LinkOnly t) (k : t.LinkOnly u) : s.LinkOnly u where
  link := by rw [k.link, h.link]; rfl
  state := by
    obtain e | ⟨hs, ht⟩ := h.state <;> obtain e' | ⟨ht', hu⟩ := k.state
    · exact .inl (e'.trans e)
    · exact .inr ⟨e ▸ ht', hu⟩
    · exact .inr ⟨hs, e' ▸ ht⟩
    · exact .inr ⟨hs, hu⟩

theorem of_state (x : Link) (h : x.state = s.link.state) : s.LinkOnly (s.setLink x) := ⟨rfl, .inl h⟩

theorem of_unexecuting (x : Link) (h : s.link.state.Unexecuting) (k : x.state.Unexecuting) : s.LinkOnly (s.setLink x) :=
  ⟨rfl, .inr ⟨h, k⟩⟩

theorem foldl {α : Type} {g : State → α → State} (hg : ∀ (s : State) (x : α), s.LinkOnly (g s x)) (l : List α) (s : State) :
    s.LinkOnly (l.foldl g s) := by
  induction l generalizing s with
  | nil => exact .refl s
  | cons x l ih => exact (hg s x).trans (ih _)

end State.LinkOnly

protected theorem LinkState.Unexecuting.idle : LinkState.idle.Unexecuting := fun _ h => nomatch h
protected theorem LinkState.Unexecuting.receiving {l : List Byte} {n : Nat} : (LinkState.receiving l n).Unexecuting := fun _ h => nomatch h
protected theorem LinkState.Unexecuting.result {l : List Byte} {n : Nat} : (LinkState.result l n).Unexecuting := fun _ h => nomatch h

section
variable (s : State)

theorem State.present_linkOnly (bits : List Bool) : s.LinkOnly (s.present bits) := .of_state _ rfl
theorem State.setPresented_linkOnly (bits : List Bool) : s.LinkOnly (s.setLink { s.link with presented := bits }) := .of_state _ rfl
theorem State.setFrame_linkOnly (x : Option Treatment) : s.LinkOnly (s.setFrame x) := .of_state _ rfl
theorem State.setLastRefusal_linkOnly (x : LastRefusal) : s.LinkOnly (s.setLastRefusal x) := .of_state _ rfl
theorem State.presentInReset_linkOnly (f : FramePart) : s.LinkOnly (s.presentInReset f) := .of_state _ rfl

theorem State.setLinkState_linkOnly (x : LinkState) (h : s.link.state.Unexecuting) (k : x.Unexecuting) :
    s.LinkOnly (s.setLinkState x) := .of_unexecuting _ h k

theorem State.takeOpener_linkOnly (b : Byte) : s.LinkOnly (s.takeOpener b) := by
  unfold State.takeOpener
  split_ifs
  · split
    · next h =>
      exact (s.setLinkState_linkOnly _ (h ▸ .idle) .receiving).trans (State.setFrame_linkOnly ..)
    · exact s.setFrame_linkOnly _
    all_goals exact (s.setLastRefusal_linkOnly _).trans (State.setFrame_linkOnly ..)
  · split <;> exact s.setFrame_linkOnly _
  · split
    case h_2 => exact s.setFrame_linkOnly _
    all_goals exact (s.setLastRefusal_linkOnly _).trans (State.setFrame_linkOnly ..)
  · split
    case h_3 => exact (s.setLastRefusal_linkOnly _).trans (State.setFrame_linkOnly ..)
    all_goals exact s.setFrame_linkOnly _
  · exact (s.setLastRefusal_linkOnly _).trans (State.setFrame_linkOnly ..)

theorem State.clockByte_linkOnly (b : Byte) : s.LinkOnly (s.clockByte b) := by
  unfold State.clockByte
  split
  · exact .refl s
  · split
    · next h =>
      exact (s.present_linkOnly _).trans (State.setLinkState_linkOnly _ _ (fun e k => nomatch h.symm.trans k) .receiving)
    all_goals exact s.present_linkOnly _
  · split
    · next h =>
      exact (s.present_linkOnly _).trans (State.setLinkState_linkOnly _ _ (fun e k => nomatch h.symm.trans k) .result)
    all_goals exact s.present_linkOnly _
  · exact (s.present_linkOnly _).trans (State.setFrame_linkOnly ..)
  all_goals exact s.present_linkOnly _

theorem State.clockOpener_linkOnly (b : Byte) : s.LinkOnly (s.clockOpener b) := by
  unfold State.clockOpener
  split
  · exact s.clockByte_linkOnly b
  · exact (s.setPresented_linkOnly _).trans (State.takeOpener_linkOnly ..)

theorem State.clockBytes_linkOnly (l : List Byte) : s.LinkOnly (s.clockBytes l) :=
  State.LinkOnly.foldl (fun s b => s.clockByte_linkOnly b) l s

theorem State.clockCut_linkOnly (n : Nat) : s.LinkOnly (s.clockCut n) := by
  unfold State.clockCut
  split
  · exact .refl s
  · exact s.present_linkOnly _

theorem State.endDelivering_linkOnly : s.LinkOnly s.endDelivering := by
  unfold State.endDelivering
  split
  · next h =>
    split
    · exact s.setLinkState_linkOnly _ (h ▸ .result) .idle
    · exact .refl s
  all_goals exact .refl s

theorem State.endAbandoning_linkOnly : s.LinkOnly s.endAbandoning := by
  unfold State.endAbandoning
  split
  · next h => exact s.setLinkState_linkOnly _ (h ▸ .result) .idle
  all_goals exact .refl s

end

/-! ### Executing a command (08 R145) -/

/-- The command's owner acts and the link takes its reply; what follows in the same step is not yet done. -/
def State.perform (s : State) (c : Command) : State := (s.carryOut c).1.conclude (s.carryOut c).2

theorem State.execute_eq (s : State) (c : Command) : s.execute c = (s.perform c).settle := rfl

/-- What a run of a frame or a command's row does: the link alone changes, or a command executes with the link changed before. -/
def State.LinkActs (s t : State) : Prop :=
  s.LinkOnly t ∨ ∃ u c, s.LinkOnly u ∧ u.link.state.Unexecuting ∧ t = u.execute c

section
variable {s t u : State}

theorem State.LinkActs.after (h : s.LinkOnly t) (k : t.LinkActs u) : s.LinkActs u := by
  obtain k | ⟨v, c, k, un, e⟩ := k
  · exact .inl (h.trans k)
  · exact .inr ⟨v, c, h.trans k, un, e⟩

theorem State.endReceiving_linkActs (s : State) : s.LinkActs s.endReceiving := by
  unfold State.endReceiving
  split
  · exact .inl (.refl s)
  · exact .inl (.refl s)
  · exact .inl (.refl s)
  · next h =>
    have un : s.link.state.Unexecuting := h ▸ .receiving
    split
    · exact .inl (.of_unexecuting _ un .result)
    · exact .inr ⟨s, _, .refl s, un, rfl⟩

theorem State.raise_linkActs (s : State) : s.LinkActs s.raise := by
  unfold State.raise
  split
  · exact .inl (.refl s)
  · exact .after (s.setFrame_linkOnly _) (State.endReceiving_linkActs _)
  · exact .inl ((s.setFrame_linkOnly _).trans (State.endDelivering_linkOnly _))
  · exact .inl ((s.setFrame_linkOnly _).trans (State.endAbandoning_linkOnly _))
  all_goals exact .inl (s.setFrame_linkOnly _)

theorem State.endRun_linkActs (s : State) (f : FramePart) : s.LinkActs (s.endRun f) := by
  unfold State.endRun
  split
  · exact .after (s.clockCut_linkOnly _) (State.raise_linkActs _)
  · exact .inl (.refl s)

theorem State.frame_linkActs (s : State) (o : Byte) (f : FramePart) : s.LinkActs (s.frame o f) := by
  unfold State.frame
  split
  · exact .inl (s.presentInReset_linkOnly f)
  · split
    · exact .after (s.clockBytes_linkOnly _) (State.endRun_linkActs ..)
    · exact .after ((s.clockOpener_linkOnly _).trans (State.clockBytes_linkOnly ..)) (State.endRun_linkActs ..)
    · unfold State.shortOpener
      split
      · exact .after (s.clockCut_linkOnly _) (State.raise_linkActs _)
      · exact .inl (.of_state _ rfl)

theorem State.sendCommand_linkActs (s : State) (c : Command) : s.LinkActs (s.sendCommand c) := by
  unfold State.sendCommand
  split
  · exact .inl (s.presentInReset_linkOnly _)
  · split
    · exact s.frame_linkActs ..
    · dsimp only
      split
      · next h =>
        refine .inr ⟨_, c, s.setPresented_linkOnly (zeros (8 * (1 + (commandBytes c).length))), ?_, rfl⟩
        exact show s.link.state.Unexecuting from h ▸ .idle
      · exact .inl (s.setPresented_linkOnly _)
      all_goals exact .inl ((s.setPresented_linkOnly _).trans (State.setLastRefusal_linkOnly ..))

end

/-! ### What happens without a command (log 7, log 9) -/

/-- One of the things that may happen in the course of a step: a free choice, a move of a router, a long command's completion, a
timer's expiry before what follows it, or a change of the outstanding transaction's answers with what ends by it. -/
inductive Quiet : State → State → Prop
  | choose (s : State) (n : Nat) : Quiet s (s.setChoices n)
  | advance (s : State) (p : Port) : s.canAdvance p = true → Quiet s (s.advance p)
  | complete (s : State) : Quiet s s.completeLong
  | refuse (s : State) (h : HeldWrite) : h ∈ s.pool.holds → Quiet s (s.refuseHold .holdLimit h)
  | expireBuffer (s : State) (b : BufId) : (s.buffer b).state = .gathering → Quiet s (s.expireBuffer b)
  | expireView (s : State) (p : Port) (v : ViewIx) : (s.view p v).state = .held → Quiet s (s.expireView p v)
  | answers (s : State) (t : Transaction) (f : List Answer → List Answer) : s.mem.outstanding = some t → Quiet s (s.takeAnswers t f)

/-- Any number of these, one after another. -/
abbrev Quiets : State → State → Prop := Relation.ReflTransGen Quiet

/-- What each of these keeps, all of them keep. -/
theorem Quiets.keeps {P : State → Prop} (quiet : ∀ s t, Quiet s t → P s → P t) {s t : State} (q : Quiets s t) (h : P s) : P t := by
  induction q with
  | refl => exact h
  | tail _ k ih => exact quiet _ _ k ih

/-- A relation to a fixed state that each of these carries on holds from the first state to the last. -/
theorem Quiets.relates {R : State → State → Prop} (refl : ∀ s, R s s) (trans : ∀ s t u, R s t → R t u → R s u)
    (quiet : ∀ s t, Quiet s t → R s t) {s t : State} (q : Quiets s t) : R s t :=
  q.keeps (P := R s) (fun _ _ k h => trans _ _ _ h (quiet _ _ k)) (refl s)

section
variable (s : State)

/-- The port that a free choice names is one whose router can move. -/
theorem State.chosen_movable {p q : Port} {ps : List Port} (h : s.movable = p :: q :: ps) (n : Nat) :
    s.canAdvance ((p :: q :: ps).getD (n % (p :: q :: ps).length) p) = true := by
  have m : (p :: q :: ps).getD (n % (p :: q :: ps).length) p ∈ s.movable := by
    have lt : n % (p :: q :: ps).length < (p :: q :: ps).length := Nat.mod_lt _ (by simp)
    rw [h, List.getD_eq_getElem _ _ lt]
    exact List.getElem_mem lt
  exact (List.mem_filter.1 m).2

theorem runRouters_quiets (n : Nat) : Quiets s (runRouters n s) := by
  induction n generalizing s with
  | zero => exact .refl
  | succ n ih =>
    unfold runRouters
    split
    · exact .refl
    · next p h =>
      have m : s.canAdvance p = true := (List.mem_filter.1 (h ▸ List.mem_cons_self : p ∈ s.movable)).2
      exact .head (.advance s p m) (ih _)
    · next h =>
      exact .head (.choose s (s.choices + 1)) (.head (.advance _ _ (s.chosen_movable h (Config.freeChoice s.choices))) (ih _))

theorem State.settle_quiets : Quiets s s.settle := (runRouters_quiets s _).tail (.complete _)

/-- What a timer's expiry does before what follows in the same step. -/
def State.expires : Timer → State
  | .hold p => s.limitHold p
  | .update b => s.expireBuffer b
  | .view p v => s.expireView p v
  | .memory => s.memoryTimeout

theorem State.expire_eq (x : Timer) : s.expire x = (s.expires x).settle := by cases x <;> rfl

theorem State.expires_quiet (x : Timer) (h : s.timerDue x = true) : Relation.ReflGen Quiet s (s.expires x) := by
  cases x with
  | hold p =>
    unfold State.expires State.limitHold State.heldOf
    dsimp only
    split
    · exact .refl
    · next y e => exact .single (.refuse s y (List.mem_of_find?_eq_some e))
  | update b => exact .single (.expireBuffer s b (by simp [State.timerDue] at h; exact h.1.1))
  | view p v => exact .single (.expireView s p v (by simp [State.timerDue] at h; exact h.1.1))
  | memory =>
    unfold State.expires State.memoryTimeout
    dsimp only
    split
    · exact .refl
    · next t e =>
      split
      · exact .single (.answers s t _ e)
      · exact .refl

theorem State.memoryAnswer_quiet (tag : Byte) (a : MemAnswer) : Relation.ReflGen Quiet s (s.memoryAnswer tag a) := by
  unfold State.memoryAnswer
  split
  · exact .refl
  · next t e =>
    split
    · exact .single (.answers s t _ e)
    · exact .refl

theorem State.expireDue_quiets : Quiets s s.expireDue := by
  refine runTimers_keeps (P := Quiets s) (fun t n h => h.tail (.choose t n)) (fun t x h d => ?_) _ s .refl
  rw [t.expire_eq]
  exact (h.trans (t.expires_quiet x d).to_reflTransGen).trans (State.settle_quiets _)

end

/-! ### A step and its parts -/

/-- The rows that are a period of the reference (log 5). -/
def Ticks (c : Instr) : Prop :=
  c = .timebaseTick ∨ c = .activateComplete .tick ∨ c = .drainComplete .tick ∨ c = .flushPortComplete .tick ∨
    c = .restartComplete .tick

/-- The effect of an arrival that the routers' moves and completions follow. -/
inductive Starts (s : State) : Instr → State → Prop
  | portReset (p : Port) : Starts s (.portReset p) (s.resetPort p).examineHolds
  | taken (p : Port) (r : Request) : s.canTake p = true → r.wellFormed = true →
      Starts s (.requestTaken p r) (s.setPort p { s.port p with queue := (s.port p).queue ++ [r] })
  | command {c : Instr} (u : State) (k : Command) : s.LinkOnly u → u.link.state.Unexecuting → Starts s c (u.perform k)
  | quiet {c : Instr} {u : State} : Relation.ReflGen Quiet s u → Starts s c u

/-- The effect of an arrival that nothing follows. -/
inductive Alone (s : State) : Instr → State → Prop
  | hardReset : Alone s .hardReset s.hardReset
  | lineFalls {c : Instr} (x : Option Treatment) : Alone s c ((s.setHardResetLine false).setFrame x)
  | resetLineFalls {c : Instr} (p : Port) : Alone s c (s.setPort p { s.port p with resetLine := false })
  | tick {c : Instr} : Ticks c → s.hardResetLine = false →
      Alone s c ((s.expireDue.setTimebase (s.expireDue.timebase + 1)).fillEntry)
  | grant : s.hardResetLine = false → Alone s .memoryGrant s.grant
  | takeCommit {c : Instr} : Alone s c s.takeCommit
  | requestCapture {c : Instr} : Alone s c s.requestCapture
  | complete {c : Instr} : Alone s c s.completeLong
  | link {c : Instr} {t : State} : s.LinkOnly t → Alone s c t

/-- A step is an arrival's effect alone, or with what follows it. -/
def Steps (s : State) (c : Instr) (t : State) : Prop := Alone s c t ∨ ∃ u, Starts s c u ∧ t = u.settle

section
variable {s : State}

theorem Steps.of_linkActs {c : Instr} {t : State} (h : s.LinkActs t) : Steps s c t := by
  obtain h | ⟨u, k, h, un, e⟩ := h
  · exact .inl (.link h)
  · exact .inr ⟨_, .command u k h un, e.trans (u.execute_eq k)⟩

theorem Steps.same (s : State) (c : Instr) : Steps s c s := .inl (.link (.refl s))

theorem Steps.tick {c : Instr} (h : Ticks c) : Steps s c s.tick := by
  unfold State.tick
  split
  · exact .same s c
  · next l => exact .inl (.tick h (by simpa using l))

theorem Steps.expireIfDue (c : Instr) (x : Timer) : Steps s c (s.expireIfDue x) := by
  unfold State.expireIfDue
  split
  · next d => exact .inr ⟨_, .quiet (s.expires_quiet x d), s.expire_eq x⟩
  · exact .same s c

theorem Steps.answer (c : Instr) (tag : Byte) (a : MemAnswer) : Steps s c (s.memoryAnswer tag a).settle :=
  .inr ⟨_, .quiet (s.memoryAnswer_quiet tag a), rfl⟩

theorem Steps.arrive {c : Instr} (k : Cause) (h : k = .tick → Ticks c) : Steps s c (s.arrive k) := by
  cases k with
  | standing => exact .inl .complete
  | tick => exact .tick (h rfl)
  | answer tag a => exact .answer c tag a
  | timeout => exact .expireIfDue c .memory

theorem Steps.completing {c : Instr} (l : LongCommand) (k : Cause) (h : k = .tick → Ticks c) : Steps s c (s.completing l k) := by
  unfold State.completing
  split
  · exact .arrive k h
  · exact .same s c

/-- Every command's step is made of these. -/
theorem exec_steps (c : Instr) (s : State) : ∃ t, exec c s = .next t ∧ Steps s c t := by
  cases c with
  | hardReset => exact ⟨_, rfl, .inl .hardReset⟩
  | hardResetDeassert low =>
    refine ⟨_, rfl, ?_⟩
    split
    · exact .inl (.lineFalls _)
    · exact .same s _
  | portReset p => exact ⟨_, rfl, .inr ⟨_, .portReset p, rfl⟩⟩
  | portResetDeassert p => exact ⟨_, rfl, .inl (.resetLineFalls p)⟩
  | timebaseTick => exact ⟨_, rfl, .tick (.inl rfl)⟩
  | activateComplete k => exact ⟨_, rfl, .completing _ k (by rintro rfl; exact .inr (.inl rfl))⟩
  | requestTaken p r =>
    refine ⟨_, rfl, ?_⟩
    split
    · next h =>
      rw [Bool.and_eq_true] at h
      exact .inr ⟨_, .taken p r h.1 h.2, rfl⟩
    · exact .same s _
  | holdLimit p => exact ⟨_, rfl, .expireIfDue _ (.hold p)⟩
  | updateExpiry b => exact ⟨_, rfl, .expireIfDue _ (.update b)⟩
  | memoryGrant =>
    refine ⟨_, rfl, ?_⟩
    split
    · exact .same s _
    · next l => exact .inl (.grant (by simpa using l))
  | memoryAnswer tag a => exact ⟨_, rfl, .answer _ tag a⟩
  | memoryTimeout => exact ⟨_, rfl, .expireIfDue _ .memory⟩
  | commitTake => exact ⟨_, rfl, .inl .takeCommit⟩
  | drainComplete k => exact ⟨_, rfl, .completing _ k (by rintro rfl; exact .inr (.inr (.inl rfl)))⟩
  | captureRequest => exact ⟨_, rfl, .inl .requestCapture⟩
  | viewExpired p v => exact ⟨_, rfl, .expireIfDue _ (.view p v)⟩
  | flushPortComplete k => exact ⟨_, rfl, .completing _ k (by rintro rfl; exact .inr (.inr (.inr (.inl rfl))))⟩
  | restartComplete k => exact ⟨_, rfl, .completing _ k (by rintro rfl; exact .inr (.inr (.inr (.inr rfl))))⟩
  | commandFrame f => exact ⟨_, rfl, .of_linkActs (s.frame_linkActs ..)⟩
  | resultFrame f => exact ⟨_, rfl, .of_linkActs (s.frame_linkActs ..)⟩
  | statusFrame f => exact ⟨_, rfl, .of_linkActs (s.frame_linkActs ..)⟩
  | abandonFrame f => exact ⟨_, rfl, .of_linkActs (s.frame_linkActs ..)⟩
  | badOpener o f => exact ⟨_, rfl, .of_linkActs (s.frame_linkActs ..)⟩
  | identify => exact ⟨_, rfl, .of_linkActs (s.sendCommand_linkActs _)⟩
  | defineRegion d => exact ⟨_, rfl, .of_linkActs (s.sendCommand_linkActs _)⟩
  | activate r => exact ⟨_, rfl, .of_linkActs (s.sendCommand_linkActs _)⟩
  | retire r m => exact ⟨_, rfl, .of_linkActs (s.sendCommand_linkActs _)⟩
  | readRegion r => exact ⟨_, rfl, .of_linkActs (s.sendCommand_linkActs _)⟩
  | clearRegion r => exact ⟨_, rfl, .of_linkActs (s.sendCommand_linkActs _)⟩
  | readRecord r k => exact ⟨_, rfl, .of_linkActs (s.sendCommand_linkActs _)⟩
  | clearTorn r k => exact ⟨_, rfl, .of_linkActs (s.sendCommand_linkActs _)⟩
  | setWatch w => exact ⟨_, rfl, .of_linkActs (s.sendCommand_linkActs _)⟩
  | clearWatch w => exact ⟨_, rfl, .of_linkActs (s.sendCommand_linkActs _)⟩
  | readWatch w => exact ⟨_, rfl, .of_linkActs (s.sendCommand_linkActs _)⟩
  | readEvents n => exact ⟨_, rfl, .of_linkActs (s.sendCommand_linkActs _)⟩
  | setEventMasks q a => exact ⟨_, rfl, .of_linkActs (s.sendCommand_linkActs _)⟩
  | flushPort p => exact ⟨_, rfl, .of_linkActs (s.sendCommand_linkActs _)⟩
  | restart => exact ⟨_, rfl, .of_linkActs (s.sendCommand_linkActs _)⟩

theorem Steps.of_exec {c : Instr} {t : State} (h : exec c s = .next t) : Steps s c t := by
  obtain ⟨u, e, k⟩ := exec_steps c s
  rw [e] at h
  cases h
  exact k

end

/-! ### Laws that every step keeps -/

/-- Each part of a step keeps the law. -/
structure Kept (P : State → Prop) : Prop where
  pending : ∀ s l, P s → P { s with pending := l }
  quiet : ∀ s t, Quiet s t → P s → P t
  portReset : ∀ s p, P s → P (s.resetPort p).examineHolds
  taken : ∀ s p r, s.canTake p = true → r.wellFormed = true → P s →
    P (s.setPort p { s.port p with queue := (s.port p).queue ++ [r] })
  command : ∀ s k, s.link.state.Unexecuting → P s → P (s.perform k)
  hardReset : ∀ s, P s → P s.hardReset
  lineFalls : ∀ s, P s → P (s.setHardResetLine false)
  resetLineFalls : ∀ s p, P s → P (s.setPort p { s.port p with resetLine := false })
  tick : ∀ s, P s → P s.expireDue → P (s.expireDue.setTimebase (s.expireDue.timebase + 1)).fillEntry
  grant : ∀ s, P s → P s.grant
  takeCommit : ∀ s, P s → P s.takeCommit
  requestCapture : ∀ s, P s → P s.requestCapture
  link : ∀ s t, s.LinkOnly t → P s → P t

namespace Kept

variable {P : State → Prop} {s t : State}

theorem quiets (K : Kept P) (q : Quiets s t) (h : P s) : P t := q.keeps K.quiet h

theorem starts (K : Kept P) {c : Instr} (q : Starts s c t) (h : P s) : P t := by
  cases q with
  | portReset p => exact K.portReset s p h
  | taken p r can formed => exact K.taken s p r can formed h
  | command u k l un => exact K.command u k un (K.link s u l h)
  | quiet q => exact K.quiets q.to_reflTransGen h

theorem alone (K : Kept P) {c : Instr} (q : Alone s c t) (h : P s) : P t := by
  cases q with
  | hardReset => exact K.hardReset s h
  | lineFalls x => exact K.link _ _ (State.setFrame_linkOnly _ x) (K.lineFalls s h)
  | resetLineFalls p => exact K.resetLineFalls s p h
  | tick _ _ => exact K.tick s h (K.quiets s.expireDue_quiets h)
  | grant _ => exact K.grant s h
  | takeCommit => exact K.takeCommit s h
  | requestCapture => exact K.requestCapture s h
  | complete => exact K.quiet _ _ (.complete s) h
  | link l => exact K.link s t l h

theorem exec (K : Kept P) {c : Instr} (e : exec c s = .next t) (h : P s) : P t := by
  obtain q | ⟨u, q, rfl⟩ := Steps.of_exec e
  · exact K.alone q h
  · exact K.quiets u.settle_quiets (K.starts q h)

/-- A law that each part keeps, every step keeps. -/
theorem step (K : Kept P) (e : step s = .next t) (h : P s) : P t := by
  unfold Machine.step at e
  split at e
  · cases e; exact h
  · exact K.exec e (K.pending s _ h)

end Kept

end Sys2Proof.Machine

/-! SUPPORT. What a command's owner can do with it (08 R145), said once: nothing but an answer, or one of these effects with its
reply. -/

namespace Sys2Proof.Machine

/-- The effect of a command's owner and its reply. -/
inductive Carried (s : State) : State → Reply → Prop
  | done (d : List Byte) : Carried s s (.done d)
  | fail (c : Completion) : Carried s s (.fail c)
  | define (r : RegionId) (d : DefineParams) : (s.region r).state = .empty ∨ (s.region r).state = .defined → PassesR2 d →
      d.regionIndex.toNat = r.val → Carried s (s.setRegion r ⟨.defined, definitionOf d r⟩) (.done [])
  | activate (r : RegionId) : (s.region r).state = .defined → s.conflicts r = false →
      Carried s (s.setRegionState r .activating) (.long (.activate r 0))
  | retire (r : RegionId) (m : DrainMode) : (s.region r).state = .active → Carried s (s.retireTaken r m).1 (s.retireTaken r m).2
  | clear (r : RegionId) (d : List Byte) : (s.region r).state = .defined →
      Carried s ((s.watchesOf r).foldl (fun s i => s.setWatch i .unusedValues) (s.setRegion r .emptyEntry)) (.done d)
  | clean (r : RegionId) (k : Nat) (d : List Byte) : (s.region r).state = .active → k < (s.definition r).recordCount →
      Carried s (s.setEntry r k { s.entry r k with torn := .clean }) (.done d)
  | setWatch (i : WatchIx) (w : WatchParams) (r : RegionId) (d : List Byte) : Carried s (s.setWatch i (watchOf w r)) (.done d)
  | clearWatch (i : WatchIx) (d : List Byte) : Carried s (s.setWatch i .unusedValues) (.done d)
  | readEvents (n : Nat) (d : List Byte) :
      Carried s (s.setEvents (EventUnit.reevaluate { s.events with queue := s.events.queue.drop n, lost := 0 })) (.done d)
  | setMasks (q : Byte) (a : Half) :
      Carried s (s.setEvents (EventUnit.reevaluate { s.events with queueMask := q, attentionMask := a.setWidth 9 })) (.done [])
  | flush (p : Port) : Carried s (s.flushTaken p).1 (s.flushTaken p).2
  | restart : Carried s s.doRestart.1 s.doRestart.2

theorem regionOfByte_eq_some {b : Byte} {r : RegionId} (h : regionOfByte b = some r) : b.toNat = r.val := by
  unfold regionOfByte at h
  split at h
  · exact congrArg Fin.val (Option.some.inj h)
  · cases h

section
variable (s : State)

theorem State.doDefineRegion_carried (d : DefineParams) : Carried s (s.doDefineRegion d).1 (s.doDefineRegion d).2 := by
  unfold State.doDefineRegion
  split
  · exact .fail _
  · next r h =>
    split
    · next allowed =>
      split
      · next legal => exact .define r d allowed (legalDefinition_iff.1 legal) (regionOfByte_eq_some h)
      · exact .fail _
    · exact .fail _

theorem State.doActivate_carried (b : Byte) : Carried s (s.doActivate b).1 (s.doActivate b).2 := by
  unfold State.doActivate
  split
  · exact .fail _
  · next r _ =>
    split
    · next allowed =>
      split
      · exact .fail _
      · next apart => exact .activate r allowed (by simpa using apart)
    · exact .fail _

theorem State.doRetire_carried (b m : Byte) : Carried s (s.doRetire b m).1 (s.doRetire b m).2 := by
  unfold State.doRetire
  split
  · exact .fail _
  · next r _ =>
    split
    · next allowed =>
      split
      · exact .fail _
      · next m _ => exact .retire r m allowed
    · exact .fail _

theorem State.doReadRegion_carried (b : Byte) : Carried s (s.doReadRegion b).1 (s.doReadRegion b).2 := by
  unfold State.doReadRegion
  split
  · exact .fail _
  · exact .done _

theorem State.doClearRegion_carried (b : Byte) : Carried s (s.doClearRegion b).1 (s.doClearRegion b).2 := by
  unfold State.doClearRegion
  split
  · exact .fail _
  · next r _ =>
    split
    · next allowed => exact .clear r _ allowed
    · exact .fail _

theorem State.doReadRecord_carried (b : Byte) (k : Half) : Carried s (s.doReadRecord b k).1 (s.doReadRecord b k).2 := by
  unfold State.doReadRecord
  split
  · exact .fail _
  · split
    · split
      · exact .done _
      · exact .fail _
    · exact .fail _

theorem State.doClearTorn_carried (b : Byte) (k : Half) : Carried s (s.doClearTorn b k).1 (s.doClearTorn b k).2 := by
  unfold State.doClearTorn
  split
  · exact .fail _
  · next r _ =>
    split
    · next allowed =>
      split
      · next inside => exact .clean r _ _ allowed inside
      · exact .fail _
    · exact .fail _

theorem State.doSetWatch_carried (w : WatchParams) : Carried s (s.doSetWatch w).1 (s.doSetWatch w).2 := by
  unfold State.doSetWatch
  split
  · exact .fail _
  · split
    · exact .fail _
    · split
      · exact .fail _
      · split
        · exact .setWatch _ w _ _
        · exact .fail _

theorem State.doClearWatch_carried (b : Byte) : Carried s (s.doClearWatch b).1 (s.doClearWatch b).2 := by
  unfold State.doClearWatch
  split
  · exact .fail _
  · exact .clearWatch _ _

theorem State.doReadWatch_carried (b : Byte) : Carried s (s.doReadWatch b).1 (s.doReadWatch b).2 := by
  unfold State.doReadWatch
  split
  · exact .fail _
  · exact .done _

theorem State.doReadEvents_carried (n : Byte) : Carried s (s.doReadEvents n).1 (s.doReadEvents n).2 := by
  unfold State.doReadEvents
  split
  · exact .readEvents _ _
  · exact .fail _

theorem State.doSetEventMasks_carried (q : Byte) (a : Half) : Carried s (s.doSetEventMasks q a).1 (s.doSetEventMasks q a).2 := by
  unfold State.doSetEventMasks
  split
  · exact .setMasks q a
  · exact .fail _

theorem State.doFlushPort_carried (b : Byte) : Carried s (s.doFlushPort b).1 (s.doFlushPort b).2 := by
  unfold State.doFlushPort
  split
  · exact .fail _
  · exact .flush _

/-- Whatever the command, its owner does one of these. -/
theorem State.carryOut_carried (c : Command) : Carried s (s.carryOut c).1 (s.carryOut c).2 := by
  cases c with
  | identify => exact .done _
  | defineRegion d => exact s.doDefineRegion_carried d
  | activate r => exact s.doActivate_carried r
  | retire r m => exact s.doRetire_carried r m
  | readRegion r => exact s.doReadRegion_carried r
  | clearRegion r => exact s.doClearRegion_carried r
  | readRecord r k => exact s.doReadRecord_carried r k
  | clearTorn r k => exact s.doClearTorn_carried r k
  | setWatch w => exact s.doSetWatch_carried w
  | clearWatch b => exact s.doClearWatch_carried b
  | readWatch b => exact s.doReadWatch_carried b
  | readEvents n => exact s.doReadEvents_carried n
  | setEventMasks q a => exact s.doSetEventMasks_carried q a
  | flushPort b => exact s.doFlushPort_carried b
  | restart => exact .restart

/-- The link takes the reply, and nothing else changes. -/
theorem State.conclude_writes (x : Reply) : s.Writes [.link] (s.conclude x) := by
  cases x <;> exact s.setLink_writes _

theorem State.setWatch_writes (i : WatchIx) (w : Watch) : s.Writes [.events] (s.setWatch i w) := s.setEvents_writes _

theorem State.clearWatches_writes (l : List WatchIx) :
    s.Writes [.events] (l.foldl (fun s i => s.setWatch i .unusedValues) s) :=
  State.Writes.foldl (fun s i => s.setWatch_writes i _) l s

theorem State.discardUpdates_writes : s.Writes [.pool, .captures] s.discardUpdates :=
  (s.setPool_writes _).seq (State.setCaptures_writes ..)

theorem State.dropRequests_writes (p : Port) : s.Writes [.ports] (s.dropRequests p) := s.setPort_writes ..

theorem State.dropHold_writes (p : Port) : s.Writes [.pool] (s.dropHold p) := s.setPool_writes _

theorem State.resetPlain_writes (p : Port) : s.Writes [.plain, .outstanding] (s.resetPlain p) := by
  refine ⟨fun f n => ?_⟩; cases f
  case plain | outstanding => exact absurd (by decide) n
  all_goals rfl

theorem State.resetPort_writes (p : Port) :
    s.Writes [.ports, .pool, .events, .views, .captures, .capture, .plain, .outstanding] (s.resetPort p) := by
  unfold State.resetPort
  exact (((((s.dropRequests_writes p).seq (State.abandonAll_writes ..)).seq (State.dropHold_writes ..)).seq
    (State.releaseAll_writes ..)).seq (State.resetPlain_writes ..)).mono

theorem State.retireTaken_writes (r : RegionId) (m : DrainMode) :
    s.Writes [.regions, .views, .captures, .pool, .capture, .ports, .events] (s.retireTaken r m).1 := by
  have taken : s.Writes [.regions, .views, .captures, .pool, .capture, .ports, .events]
      (((s.setRegionState r .draining).releaseAll (s.viewsWhere fun _ x => x.region = r)).giveBackAwaiting r) :=
    (((s.setRegions_writes _).seq (State.releaseAll_writes ..)).seq (State.giveBackAwaiting_writes ..)).mono
  unfold State.retireTaken
  dsimp only
  refine State.Writes.trans ?_ (State.examineHolds_writes _).mono
  refine State.Writes.trans ?_ (State.Writes.foldl (fun s h => (s.refuseHold_writes .retired h).mono) _ _)
  cases m with
  | abandon => exact taken.trans (State.Writes.foldl (fun s b => (s.abandonBuffer_writes .retire b).mono) _ _)
  | close => exact taken.trans (State.Writes.foldl (fun s b => (s.closeBuffer_writes b).mono) _ _)

theorem State.flushTaken_writes (p : Port) :
    s.Writes [.pool, .events, .views, .captures, .capture, .ports] (s.flushTaken p).1 := by
  unfold State.flushTaken
  exact (((s.abandonAll_writes p .flush).seq (State.releaseAll_writes ..)).seq (State.examineHolds_writes _)).mono

theorem State.doRestart_writes : s.Writes [.pool, .captures, .views, .capture, .ports, .events] s.doRestart.1 := by
  unfold State.doRestart
  exact (((s.discardUpdates_writes.seq (State.releaseAll_writes ..)).seq (State.setEvents_writes ..)).seq
    (State.examineHolds_writes _)).mono

/-- A link that changes alone changes no other field. -/
theorem State.LinkOnly.writes {s t : State} (h : s.LinkOnly t) : s.Writes [.link] t := by
  rw [h.link]
  exact s.setLink_writes _

/-- The entry that a tick fills while an ACTIVATE executes, with the command's count advanced (01 R8). -/
def State.filled (s : State) (r : RegionId) (n : Nat) : State :=
  (s.setEntry r n .initial).setLinkState (.executing (.activate r (n + 1)))

/-- A tick fills an entry only while an ACTIVATE executes (01 R8). -/
theorem State.fillEntry_cases : (∃ r n, s.link.state = .executing (.activate r n) ∧ s.fillEntry = (s.filled r n).completeLong) ∨
    ((∀ r n, s.link.state ≠ .executing (.activate r n)) ∧ s.fillEntry = s) := by
  unfold State.fillEntry
  cases hl : s.link.state with
  | idle => exact .inr ⟨fun _ _ => nofun, rfl⟩
  | receiving l n => exact .inr ⟨fun _ _ => nofun, rfl⟩
  | result l n => exact .inr ⟨fun _ _ => nofun, rfl⟩
  | executing e =>
    cases e with
    | activate r n => exact .inl ⟨r, n, rfl, rfl⟩
    | retire r a c v => exact .inr ⟨fun _ _ => nofun, rfl⟩
    | flushPort a v w => exact .inr ⟨fun _ _ => nofun, rfl⟩
    | restart g c v f wm wc => exact .inr ⟨fun _ _ => nofun, rfl⟩

theorem State.filled_writes (r : RegionId) (n : Nat) : s.Writes [.versions, .link] (s.filled r n) :=
  (s.setVersions_writes _).seq (State.setLink_writes ..)

theorem State.fillEntry_writes : s.Writes [.versions, .link, .regions] s.fillEntry := by
  obtain ⟨r, n, -, e⟩ | ⟨-, e⟩ := s.fillEntry_cases <;> rw [e]
  · exact ((s.filled_writes r n).seq (State.completeLong_writes _)).mono
  · exact .refl _ s

end

end Sys2Proof.Machine

/-! SUPPORT. The event unit's law (07 R123, R130, R134) through every part of a step: the routers, the pool and the views only post
events, a completed commit changes ACTIVE watches alone, and each command of the event unit re-evaluates the line. -/

namespace Sys2Proof.Machine

/-! ### Events posted and nothing else -/

/-- The event unit after any number of postings (07 R130). -/
def EventUnit.Posted : EventUnit → EventUnit → Prop :=
  Relation.ReflTransGen fun e e' => ∃ now body r p k v, e' = e.post now body r p k v

namespace EventUnit.Posted

protected theorem refl (e : EventUnit) : e.Posted e := Relation.ReflTransGen.refl

protected theorem trans {e f g : EventUnit} (h : e.Posted f) (k : f.Posted g) : e.Posted g := Relation.ReflTransGen.trans h k

theorem of_eq {e f : EventUnit} (h : f = e) : e.Posted f := h ▸ Posted.refl e

/-- What a posting keeps, any number of them keeps. -/
theorem keeps {Q : EventUnit → Prop} (post : ∀ e now body r p k v, Q e → Q (e.post now body r p k v)) {e f : EventUnit}
    (h : e.Posted f) (q : Q e) : Q f := by
  induction h with
  | refl => exact q
  | tail _ k ih =>
    obtain ⟨now, body, r, p, k, v, rfl⟩ := k
    exact post _ _ _ _ _ _ _ ih

end EventUnit.Posted

/-- From the one state to the other events were posted, and the event unit changed in no other way. -/
structure State.Posts (s t : State) : Prop where
  posted : s.events.Posted t.events

namespace State.Posts

variable {s t u : State}

protected theorem refl (s : State) : s.Posts s := ⟨.refl _⟩

protected theorem trans (h : s.Posts t) (k : t.Posts u) : s.Posts u := ⟨h.posted.trans k.posted⟩

/-- An operation that does not write the event unit posts nothing. -/
theorem of_writes {fs : List Field} (h : s.Writes fs t) (n : Field.events ∉ fs := by decide) : s.Posts t :=
  ⟨.of_eq (h.events n)⟩

theorem post (s : State) (body : EventBody) (r : RegionId) (p : Port) (k : Nat) (v : Half) : s.Posts (s.post body r p k v) :=
  ⟨Relation.ReflTransGen.single ⟨_, _, _, _, _, _, rfl⟩⟩

theorem foldl {α : Type} {g : State → α → State} (hg : ∀ (s : State) (x : α), s.Posts (g s x)) (l : List α) (s : State) :
    s.Posts (l.foldl g s) := by
  induction l generalizing s with
  | nil => exact .refl s
  | cons x l ih => exact (hg s x).trans (ih _)

end State.Posts

section
variable (s : State)

theorem State.foreignWrite_posts (p : Port) (x : Spot) (n : Nat) : s.Posts (s.foreignWrite p x n) :=
  (State.Posts.post s ..).trans (.of_writes (State.finishPiece_writes ..))

theorem State.abandonBuffer_posts (c : AbandonCause) (b : BufId) : s.Posts (s.abandonBuffer c b) :=
  (State.Posts.of_writes (s.freeGathering_writes b)).trans (.post ..)

theorem State.abandonAll_posts (p : Port) (c : AbandonCause) : s.Posts (s.abandonAll p c) :=
  State.Posts.foldl (fun s b => s.abandonBuffer_posts c b) _ s

theorem State.refuseHold_posts (c : RefusedCause) (h : HeldWrite) : s.Posts (s.refuseHold c h) :=
  ((State.Posts.of_writes (s.setPool_writes _)).trans (.post ..)).trans (.of_writes (State.finishPiece_writes ..))

theorem State.tearThrough_posts (p : Port) (x : Spot) : s.Posts (s.tearThrough p x) :=
  (State.Posts.of_writes ((s.setVersions_writes _).seq (State.makePreTorn_writes ..))).trans (.post ..)

theorem State.exhausted_posts (p : Port) (x : Spot) (a : Word) (ws : List WriteWord) : s.Posts (s.exhausted p x a ws) := by
  have posted : s.Posts (s.postExhausted p x) := .post s ..
  rw [s.exhausted_eq]
  split
  · exact (posted.trans (State.tearThrough_posts ..)).trans
      (.of_writes ((State.setPlainRequest_writes ..).seq (State.awaitPiece_writes ..)))
  · exact posted.trans (.of_writes (State.finishPiece_writes ..))
  · exact posted.trans (.of_writes (((State.earlyClose_writes ..).seq (State.holdPiece_writes ..)).seq (State.examineHolds_writes _)))

theorem State.stagePiece_posts (p : Port) (x : Spot) (a : Word) (ws : List WriteWord) : s.Posts (s.stagePiece p x a ws) := by
  unfold State.stagePiece
  dsimp only
  split
  · exact .of_writes (s.finishPiece_writes ..)
  · split
    · exact .of_writes (((s.stageIn_writes ..).seq (State.finishPiece_writes ..)).seq (State.examineIf_writes ..))
    · split
      · exact .of_writes (((s.openUpdate_writes ..).seq (State.finishPiece_writes ..)).seq (State.examineIf_writes ..))
      · exact s.exhausted_posts ..

theorem State.handPiece_posts (p : Port) (r : Request) (k n : Nat) (x : Option Spot) : s.Posts (s.handPiece p r k n x) := by
  unfold State.handPiece
  split
  · exact .of_writes (s.plainPiece_writes ..)
  · dsimp only
    split
    · split
      · exact .of_writes (s.readOwn_writes ..)
      · exact s.stagePiece_posts ..
    · split
      · split
        · exact .of_writes (s.viewPiece_writes ..)
        · exact .of_writes (s.plainPiece_writes ..)
      · exact s.foreignWrite_posts ..

theorem State.advance_posts (p : Port) : s.Posts (s.advance p) := by
  unfold State.advance
  split
  · exact .refl s
  · dsimp only
    split
    · exact .of_writes (s.respond_writes ..)
    · split
      · exact .of_writes (s.finishPiece_writes ..)
      · exact s.handPiece_posts ..

theorem State.expireBuffer_posts (b : BufId) : s.Posts (s.expireBuffer b) := by
  unfold State.expireBuffer
  dsimp only
  have first : s.Posts (match (s.definition (s.buffer b).region).action with
      | .discard => s.freeGathering b
      | .close => s.closeBuffer b) := by
    split
    · exact .of_writes (s.freeGathering_writes b)
    · exact .of_writes (s.closeBuffer_writes b)
  exact (first.trans (.post ..)).trans (.of_writes (State.examineHolds_writes _))

theorem State.expireView_posts (p : Port) (v : ViewIx) : s.Posts (s.expireView p v) :=
  (State.Posts.of_writes (s.releaseView_writes p v)).trans (.post ..)

theorem State.faultCapture_posts (c : Capture) : s.Posts (s.faultCapture c) := by
  unfold State.faultCapture
  dsimp only
  split
  · exact .of_writes (s.endCapture_writes c)
  · next v _ =>
    have k := (s.endCapture_writes c).seq (State.releaseView_writes _ c.port v)
    refine State.Posts.trans ?_ (.post ..)
    split
    · exact .of_writes k
    · split
      · exact .of_writes (k.seq (State.finishPiece_writes ..))
      · exact .of_writes k

theorem State.settleRecord_posts (b : BufId) (faulted : Bool) : s.Posts (s.settleRecord b faulted) := by
  unfold State.settleRecord
  dsimp only
  split
  · exact (State.Posts.of_writes ((s.setVersions_writes _).seq (State.makePreTorn_writes ..))).trans (.post ..)
  · exact .of_writes (s.setVersions_writes _)

theorem State.endRead_posts : s.Posts s.endRead := by
  unfold State.endRead
  split
  · exact .refl s
  · refine State.Posts.trans ?_ (.of_writes (State.mapExecuting_writes ..))
    split
    · exact s.faultCapture_posts _
    · exact .of_writes (s.completeCapture_writes _)

theorem State.resetPort_posts (p : Port) : s.Posts (s.resetPort p) := by
  have dropped : s.Posts (s.dropRequests p) := .of_writes (s.dropRequests_writes p)
  unfold State.resetPort
  exact (dropped.trans (State.abandonAll_posts ..)).trans
    (.of_writes (((State.dropHold_writes ..).seq (State.releaseAll_writes ..)).seq (State.resetPlain_writes ..)))

theorem State.retireTaken_posts (r : RegionId) (m : DrainMode) : s.Posts (s.retireTaken r m).1 := by
  unfold State.retireTaken
  dsimp only
  refine State.Posts.trans ?_ (.of_writes (State.examineHolds_writes _))
  refine State.Posts.trans ?_ (State.Posts.foldl (fun s h => s.refuseHold_posts .retired h) _ _)
  have taken : s.Posts (((s.setRegionState r .draining).releaseAll (s.viewsWhere fun _ x => x.region = r)).giveBackAwaiting r) :=
    .of_writes (((s.setRegions_writes _).seq (State.releaseAll_writes ..)).seq (State.giveBackAwaiting_writes ..))
  cases m with
  | abandon => exact taken.trans (State.Posts.foldl (fun s b => s.abandonBuffer_posts .retire b) _ _)
  | close => exact taken.trans (State.Posts.foldl (fun s b => .of_writes (s.closeBuffer_writes b)) _ _)

theorem State.flushTaken_posts (p : Port) : s.Posts (s.flushTaken p).1 :=
  ((s.abandonAll_posts p .flush).trans (.of_writes (State.releaseAll_writes ..))).trans (.of_writes (State.examineHolds_writes _))

end

/-! ### The law (07 R123, R130, R134) -/

/-- The event unit's law, with UNUSED watches blank. -/
structure EventUnit.Sound (e : EventUnit) : Prop where
  lawful : e.Lawful
  blank : ∀ i, (cell e.watches i).state = .unused → cell e.watches i = .unusedValues

namespace EventUnit.Sound

variable {e f : EventUnit}

theorem post (h : e.Sound) (now : Word) (body : EventBody) (r : RegionId) (p : Port) (k : Nat) (v : Half) :
    (e.post now body r p k v).Sound :=
  ⟨EventUnit.post_lawful e now body r p k v h.lawful, by rw [EventUnit.post_watches]; exact h.blank⟩

theorem posted (h : e.Sound) (k : e.Posted f) : f.Sound := k.keeps (fun _ _ _ _ _ _ _ h => h.post ..) h

/-- Writing a watch that is not UNUSED, or that is blank, keeps the law. -/
theorem putWatch (h : e.Sound) (i : WatchIx) (w : Watch) (hw : w.state = .unused → w = .unusedValues) :
    EventUnit.Sound { e with watches := put e.watches i w } where
  lawful := ⟨h.lawful.queue_le, h.lawful.lost_le, h.lawful.line⟩
  blank j hj := by
    simp only [cell_put] at hj ⊢
    split at hj
    · next eq => rw [if_pos eq]; exact hw hj
    · next ne => rw [if_neg ne]; exact h.blank j hj

/-- Re-evaluation makes the unit lawful where its bounds hold and its watches are those of a lawful one. -/
theorem reevaluate (h : e.Sound) (f : EventUnit) (watches : f.watches = e.watches) (queue : f.queue.length ≤ 32) (lost : f.lost ≤ 255) :
    f.reevaluate.Sound :=
  ⟨f.reevaluate_lawful queue lost, by rw [EventUnit.reevaluate_watches, watches]; exact h.blank⟩

end EventUnit.Sound

/-- A watch that is evaluated is ACTIVE, and a match leaves it ACTIVE or SPENT (07 R128, R129). -/
theorem watchedWord_active {c : Committed} {w : Watch} {data : Word} (h : watchedWord c w = some data) : w.state = .active := by
  unfold watchedWord at h
  split at h
  · next k => exact k.1
  · cases h

theorem Watch.afterMatch_used {w : Watch} (h : w.state = .active) (data : Word) : (w.afterMatch data).state ≠ .unused := by
  unfold Watch.afterMatch
  cases w.mode <;> simp [h]

theorem watchOf_used (w : WatchParams) (r : RegionId) : (watchOf w r).state ≠ .unused := by simp [watchOf]

/-- A part's event unit is sound. -/
def State.EventsSound (s : State) : Prop := s.events.Sound

namespace State.EventsSound

variable {s t : State}

theorem posts (h : s.EventsSound) (k : s.Posts t) : t.EventsSound := EventUnit.Sound.posted h k.posted

theorem writes (h : s.EventsSound) {fs : List Field} (k : s.Writes fs t) (n : Field.events ∉ fs := by decide) : t.EventsSound :=
  h.posts (.of_writes k n)

theorem setWatch (h : s.EventsSound) (i : WatchIx) (w : Watch) (hw : w.state = .unused → w = .unusedValues) :
    (s.setWatch i w).EventsSound := EventUnit.Sound.putWatch h i w hw

theorem evaluateWatch (h : s.EventsSound) (c : Committed) (i : WatchIx) : (s.evaluateWatch c i).EventsSound := by
  unfold State.evaluateWatch
  dsimp only
  split
  · exact h
  · next data w =>
    split
    · refine posts (s := s.setWatch i ((cell s.events.watches i).afterMatch data)) ?_ (.post ..)
      exact h.setWatch i _ fun u => absurd u (Watch.afterMatch_used (watchedWord_active w) data)
    · exact h

theorem evaluateWatches (h : s.EventsSound) (c : Committed) : (s.evaluateWatches c).EventsSound := by
  unfold State.evaluateWatches
  generalize allWatches = l
  induction l generalizing s with
  | nil => exact h
  | cons i l ih => exact ih (h.evaluateWatch c i)

theorem completeCommit (h : s.EventsSound) (job : CommitJob) : (s.completeCommit job).EventsSound := by
  have settled : (s.settledCommit job).EventsSound := evaluateWatches (h.posts (s.settleRecord_posts ..)) _
  rw [s.completeCommit_eq]
  exact settled.writes (((((State.freeCommitted_writes ..).seq (State.mapExecuting_writes ..)).seq
    (State.setEngine_writes ..)).seq (State.examineHolds_writes _)).seq (State.takeCommit_writes _))

theorem endTransaction (h : s.EventsSound) (q : Requester) (as : List Answer) (d : Bool) : (s.endTransaction q as d).EventsSound := by
  have idle := h.writes s.idlePort_writes
  obtain e | ⟨p, -, -, e⟩ | ⟨job, -, -, -, e⟩ | ⟨-, -, e⟩ := s.endTransaction_cases q as d <;> rw [e]
  · exact idle
  · exact idle.writes (State.endPlain_writes ..)
  · exact idle.completeCommit _
  · exact idle.posts (State.endRead_posts _)

theorem takeAnswers (h : s.EventsSound) (tr : Transaction) (f : List Answer → List Answer) : (s.takeAnswers tr f).EventsSound := by
  unfold State.takeAnswers
  dsimp only
  have k := h.writes (s.recordAnswers_writes tr f)
  split
  · exact k.endTransaction ..
  · exact k

theorem quiet (q : Quiet s t) (h : s.EventsSound) : t.EventsSound := by
  cases q with
  | choose n => exact h.writes (s.setChoices_writes n)
  | advance p _ => exact h.posts (s.advance_posts p)
  | complete => exact h.writes s.completeLong_writes
  | refuse x _ => exact h.posts (s.refuseHold_posts ..)
  | expireBuffer b _ => exact h.posts (s.expireBuffer_posts b)
  | expireView p v _ => exact h.posts (s.expireView_posts p v)
  | answers tr f _ => exact h.takeAnswers tr f

theorem conclude (h : s.EventsSound) (x : Reply) : (s.conclude x).EventsSound := by
  cases x <;> exact h.writes (s.setLink_writes _)

/-- Every command's owner keeps the event unit sound. -/
theorem carried {x : Reply} (h : s.EventsSound) (c : Carried s t x) : t.EventsSound := by
  cases c with
  | done d => exact h
  | fail c => exact h
  | define r d _ _ _ => exact h.writes (s.setRegions_writes _)
  | activate r _ _ => exact h.writes (s.setRegions_writes _)
  | retire r m _ => exact h.posts (s.retireTaken_posts r m)
  | clear r d _ =>
    have empty : (s.setRegion r .emptyEntry).EventsSound := h.writes (s.setRegions_writes _)
    generalize s.watchesOf r = l
    generalize s.setRegion r .emptyEntry = u at empty
    induction l generalizing u with
    | nil => exact empty
    | cons i l ih => exact ih _ (empty.setWatch i _ fun _ => rfl)
  | clean r k d _ _ => exact h.writes (s.setVersions_writes _)
  | setWatch i w r d => exact h.setWatch i _ fun u => absurd u (watchOf_used w r)
  | clearWatch i d => exact h.setWatch i _ fun _ => rfl
  | readEvents n d =>
    refine EventUnit.Sound.reevaluate h _ rfl ?_ (Nat.zero_le _)
    exact le_trans (by simp) h.lawful.queue_le
  | setMasks q a => exact EventUnit.Sound.reevaluate h _ rfl h.lawful.queue_le h.lawful.lost_le
  | flush p => exact h.posts (s.flushTaken_posts p)
  | restart =>
    have gone : (s.discardUpdates.releaseAll (s.viewsWhere fun _ _ => true)).EventsSound :=
      h.writes (s.discardUpdates_writes.seq (State.releaseAll_writes ..))
    have restarted : s.events.restarted.Sound := EventUnit.Sound.reevaluate h _ rfl (Nat.zero_le _) (Nat.zero_le _)
    exact writes (s := (s.discardUpdates.releaseAll (s.viewsWhere fun _ _ => true)).setEvents s.events.restarted) restarted
      (State.examineHolds_writes _)

/-- The law holds right after hard reset. -/
theorem initial : EventUnit.initial.Sound where
  lawful := ⟨Nat.zero_le _, Nat.zero_le _, rfl⟩
  blank _ _ := cell_replicate ..

/-- Every part of a step keeps the event unit sound. -/
theorem kept : Kept State.EventsSound where
  pending _ _ h := h
  quiet _ _ q h := quiet q h
  portReset s p h := (h.posts (s.resetPort_posts p)).writes (State.examineHolds_writes _)
  taken s p r _ _ h := h.writes (s.setPort_writes ..)
  command s k _ h := (h.carried (s.carryOut_carried k)).writes (State.conclude_writes ..)
  hardReset s _ := initial
  lineFalls s h := h.writes (s.setHardResetLine_writes _)
  resetLineFalls s p h := h.writes (s.setPort_writes ..)
  tick s _ h := h.writes ((State.setTimebase_writes ..).seq (State.fillEntry_writes _))
  grant s h := h.writes s.grant_writes
  takeCommit s h := h.writes s.takeCommit_writes
  requestCapture s h := h.writes s.requestCapture_writes
  link s t l h := h.writes l.writes

end State.EventsSound

/-- Settles O52: every part of a step keeps the event unit sound. -/
theorem everyStepKeepsTheEventUnitLawful : Obligations.EveryStepKeepsTheEventUnitLawful := by
  intro s t lawful blank e
  obtain ⟨lawful, blank⟩ := State.EventsSound.kept.step e ⟨lawful, blank⟩
  exact ⟨lawful, blank⟩

end Sys2Proof.Machine

/-! SUPPORT. The fields that the parts of a step may write, and what only one kind of command changes (06 R111, R112, R120; 07 R121). -/

namespace Sys2Proof.Machine

/-- What a step may write but for the arrivals that have a field of their own: not the waiting commands, the hard reset line, the
timebase or the arbiter's registers. -/
def stepped : List Field :=
  [.regions, .versions, .ports, .pool, .engine, .views, .captures, .plain, .commit, .capture, .outstanding, .events, .link, .choices]

section
variable (s : State)

theorem State.expireBuffer_writes (b : BufId) : s.Writes [.pool, .captures, .events, .ports] (s.expireBuffer b) := by
  unfold State.expireBuffer
  dsimp only
  have first : s.Writes [.pool, .captures] (match (s.definition (s.buffer b).region).action with
      | .discard => s.freeGathering b
      | .close => s.closeBuffer b) := by
    split
    · exact (s.freeGathering_writes b).mono
    · exact s.closeBuffer_writes b
  exact ((first.seq (State.post_writes ..)).seq (State.examineHolds_writes _)).mono

theorem State.expireView_writes (p : Port) (v : ViewIx) :
    s.Writes [.views, .captures, .pool, .capture, .events] (s.expireView p v) :=
  (s.releaseView_writes p v).seq (State.post_writes ..)

/-- What the end of a transaction may write. -/
theorem State.endTransaction_writes (q : Requester) (as : List Answer) (d : Bool) :
    s.Writes [.outstanding, .ports, .versions, .pool, .events, .link, .engine, .captures, .commit, .views, .capture]
      (s.endTransaction q as d) := by
  have idle := s.idlePort_writes
  obtain e | ⟨p, -, -, e⟩ | ⟨job, -, -, -, e⟩ | ⟨-, -, e⟩ := s.endTransaction_cases q as d <;> rw [e]
  · exact idle.mono
  · exact (idle.seq (State.endPlain_writes ..)).mono
  · exact (idle.seq (State.completeCommit_writes ..)).mono
  · exact (idle.seq (State.endRead_writes _)).mono

theorem State.takeAnswers_writes (t : Transaction) (f : List Answer → List Answer) :
    s.Writes [.outstanding, .ports, .versions, .pool, .events, .link, .engine, .captures, .commit, .views, .capture]
      (s.takeAnswers t f) := by
  unfold State.takeAnswers
  dsimp only
  split
  · exact ((s.recordAnswers_writes t f).seq (State.endTransaction_writes ..)).mono
  · exact (s.recordAnswers_writes t f).mono

theorem Quiet.writes {s t : State} (q : Quiet s t) : s.Writes stepped t := by
  cases q with
  | choose n => exact (s.setChoices_writes n).mono
  | advance p _ => exact (s.advance_writes p).mono
  | complete => exact s.completeLong_writes.mono
  | refuse h _ => exact (s.refuseHold_writes ..).mono
  | expireBuffer b _ => exact (s.expireBuffer_writes b).mono
  | expireView p v _ => exact (s.expireView_writes p v).mono
  | answers tr f _ => exact (s.takeAnswers_writes tr f).mono

theorem Quiets.writes {s t : State} (q : Quiets s t) : s.Writes stepped t :=
  q.relates (R := State.Writes stepped) (.refl stepped) (fun _ _ _ => .trans) fun _ _ => Quiet.writes

theorem Carried.writes {s t : State} {x : Reply} (c : Carried s t x) : s.Writes stepped t := by
  cases c with
  | done d => exact .refl _ s
  | fail c => exact .refl _ s
  | define r d _ _ _ => exact (s.setRegions_writes _).mono
  | activate r _ _ => exact (s.setRegions_writes _).mono
  | retire r m _ => exact (s.retireTaken_writes r m).mono
  | clear r d _ => exact ((s.setRegions_writes _).seq (State.clearWatches_writes ..)).mono
  | clean r k d _ _ => exact (s.setVersions_writes _).mono
  | setWatch i w r d => exact (s.setWatch_writes ..).mono
  | clearWatch i d => exact (s.setWatch_writes ..).mono
  | readEvents n d => exact (s.setEvents_writes _).mono
  | setMasks q a => exact (s.setEvents_writes _).mono
  | flush p => exact (s.flushTaken_writes p).mono
  | restart => exact s.doRestart_writes.mono

theorem State.perform_writes (c : Command) : s.Writes stepped (s.perform c) :=
  (s.carryOut_carried c).writes.trans (State.conclude_writes ..).mono

theorem Starts.writes {s t : State} {c : Instr} (q : Starts s c t) : s.Writes stepped t := by
  cases q with
  | portReset p => exact ((s.resetPort_writes p).seq (State.examineHolds_writes _)).mono
  | taken p r _ _ => exact (s.setPort_writes ..).mono
  | command u k l _ => exact l.writes.mono.trans (u.perform_writes k)
  | quiet q => exact Quiets.writes q.to_reflTransGen

theorem State.settle_writes : s.Writes stepped s.settle := s.settle_quiets.writes

end

/-! ### What only one kind of command changes -/

/-- A grant takes the counter's tag and issues one transaction, or does nothing (06 R111, R112). -/
theorem State.grant_issues (s : State) : (s.grant.mem.issued = s.mem.issued ∧ s.grant.mem.tagCounter = s.mem.tagCounter) ∨
    (s.mem.outstanding = none ∧ s.grant.mem.tagCounter = s.mem.tagCounter + 1 ∧
      ∃ m, s.grant.mem.issued = s.mem.issued ++ [⟨s.mem.tagCounter, m⟩]) := by
  unfold State.grant
  split
  · exact .inl ⟨rfl, rfl⟩
  · next idle =>
    split
    · exact .inl ⟨rfl, rfl⟩
    · next q _ =>
      split
      · exact .inl ⟨rfl, rfl⟩
      · next m _ =>
        have told := (State.tellGrant_writes (s.setMem { s.mem.clearPending q with
          outstanding := some ⟨q, s.mem.tagCounter, m, s.timebase, List.replicate m.count .unanswered, false⟩
          tagCounter := s.mem.tagCounter + 1, ring := q.next, issued := s.mem.issued ++ [⟨s.mem.tagCounter, m⟩] }) q).arbiter
        exact .inr ⟨idle, told.2.1, m, told.2.2⟩

/-- Settles O2: the counters are written by no part of a step but their own arrivals'. -/
theorem onlyItsOwnCommandMovesEachCounter : Obligations.OnlyItsOwnCommandMovesEachCounter := by
  intro c s t e
  have unmoved : ∀ {u : State}, s.Writes stepped u → u.pending = s.pending ∧ u.timebase = s.timebase ∧
      (u.mem.issued = s.mem.issued ∧ u.mem.tagCounter = s.mem.tagCounter) := fun w =>
    ⟨w.pending, w.timebase, w.arbiter.2.2, w.arbiter.2.1⟩
  obtain q | ⟨u, q, rfl⟩ := Steps.of_exec e
  · cases q with
    | hardReset => exact ⟨rfl, fun _ => .inl ⟨rfl, rfl⟩, .inl ⟨rfl, rfl⟩⟩
    | lineFalls x => exact ⟨rfl, fun n => absurd rfl n, .inl ⟨rfl, rfl⟩⟩
    | resetLineFalls p => exact ⟨rfl, fun n => absurd rfl n, .inl ⟨rfl, rfl⟩⟩
    | tick ticks line =>
      obtain ⟨pending, timebase, issued⟩ := unmoved s.expireDue_quiets.writes
      have fill := State.fillEntry_writes (s.expireDue.setTimebase (s.expireDue.timebase + 1))
      exact ⟨fill.pending.trans pending, fun _ => .inr ⟨ticks, line, by rw [fill.timebase, ← timebase]; rfl⟩,
        .inl ⟨fill.arbiter.2.2.trans issued.1, fill.arbiter.2.1.trans issued.2⟩⟩
    | grant line =>
      refine ⟨s.grant_writes.pending, fun n => absurd s.grant_writes.timebase n, ?_⟩
      exact s.grant_issues.imp_right fun ⟨idle, tag, issued⟩ => ⟨rfl, idle, tag, issued⟩
    | takeCommit => exact ⟨s.takeCommit_writes.pending, fun n => absurd s.takeCommit_writes.timebase n,
        .inl ⟨s.takeCommit_writes.arbiter.2.2, s.takeCommit_writes.arbiter.2.1⟩⟩
    | requestCapture => exact ⟨s.requestCapture_writes.pending, fun n => absurd s.requestCapture_writes.timebase n,
        .inl ⟨s.requestCapture_writes.arbiter.2.2, s.requestCapture_writes.arbiter.2.1⟩⟩
    | complete =>
      obtain ⟨pending, timebase, issued⟩ := unmoved (Quiet.complete s).writes
      exact ⟨pending, fun n => absurd timebase n, .inl issued⟩
    | link l =>
      obtain ⟨pending, timebase, issued⟩ := unmoved l.writes.mono
      exact ⟨pending, fun n => absurd timebase n, .inl issued⟩
  · obtain ⟨pending, timebase, issued⟩ := unmoved (q.writes.trans u.settle_writes)
    exact ⟨pending, fun n => absurd timebase n, .inl issued⟩

end Sys2Proof.Machine

/-! SUPPORT. Requests and responses (02 R25, R26): the one operation that answers a request is the router's response; every other
part of a step leaves each port's queue, responses and reset line as they were. -/

namespace Sys2Proof.Machine

/-- Each port has the same queue, responses and reset line as before; its service alone may differ. -/
structure State.KeepsRequests (s t : State) : Prop where
  queue : ∀ p, (t.port p).queue = (s.port p).queue
  responses : ∀ p, (t.port p).responses = (s.port p).responses
  resetLine : ∀ p, (t.port p).resetLine = (s.port p).resetLine

namespace State.KeepsRequests

variable {s t u : State}

protected theorem refl (s : State) : s.KeepsRequests s := ⟨fun _ => rfl, fun _ => rfl, fun _ => rfl⟩

protected theorem trans (h : s.KeepsRequests t) (k : t.KeepsRequests u) : s.KeepsRequests u :=
  ⟨fun p => (k.queue p).trans (h.queue p), fun p => (k.responses p).trans (h.responses p),
    fun p => (k.resetLine p).trans (h.resetLine p)⟩

theorem of_ports (h : t.ports = s.ports) : s.KeepsRequests t := by
  have e : ∀ p, t.port p = s.port p := fun p => by rw [State.port, State.port, h]
  exact ⟨fun p => by rw [e], fun p => by rw [e], fun p => by rw [e]⟩

/-- An operation that does not write the ports. -/
theorem of_writes {fs : List Field} (h : s.Writes fs t) (n : Field.ports ∉ fs := by decide) : s.KeepsRequests t :=
  .of_ports (h.ports n)

theorem foldl {α : Type} {g : State → α → State} (hg : ∀ (s : State) (x : α), s.KeepsRequests (g s x)) (l : List α) (s : State) :
    s.KeepsRequests (l.foldl g s) := by
  induction l generalizing s with
  | nil => exact .refl s
  | cons x l ih => exact (hg s x).trans (ih _)

end State.KeepsRequests

section
variable (s : State)

theorem State.setService_keepsRequests (p : Port) (x : Service) : s.KeepsRequests (s.setService p x) := by
  have port : ∀ q, (s.setService p x).port q = { s.port q with service := ((s.setService p x).port q).service } := fun q => by
    rw [show (s.setService p x).port q = if q = p then { s.port p with service := x } else s.port q from s.setPort_port p q _]
    split
    · next e => rw [e]
    · rfl
  exact ⟨fun q => by rw [port], fun q => by rw [port], fun q => by rw [port]⟩

theorem State.finishPiece_keepsRequests (p : Port) (n : Nat) (st : Status) (ws : List Word) :
    s.KeepsRequests (s.finishPiece p n st ws) := s.setService_keepsRequests ..

theorem State.awaitPiece_keepsRequests (p : Port) (n : Nat) (x : Option Spot) (w : Wait) :
    s.KeepsRequests (s.awaitPiece p n x w) := s.setService_keepsRequests ..

theorem State.giveBack_keepsRequests (p : Port) : s.KeepsRequests (s.giveBack p) := s.setService_keepsRequests ..

theorem State.plainPiece_keepsRequests (p : Port) (r : Request) (k n : Nat) (x : Option Spot) :
    s.KeepsRequests (s.plainPiece p r k n x) :=
  (State.KeepsRequests.of_writes (s.setPlainRequest_writes ..)).trans (State.awaitPiece_keepsRequests ..)

theorem State.foreignWrite_keepsRequests (p : Port) (x : Spot) (n : Nat) : s.KeepsRequests (s.foreignWrite p x n) :=
  (State.KeepsRequests.of_writes (s.post_writes ..)).trans (State.finishPiece_keepsRequests ..)

theorem State.examineHold_keepsRequests (h : HeldWrite) : s.KeepsRequests (s.examineHold h) := by
  unfold State.examineHold
  split
  · exact (State.KeepsRequests.of_writes ((s.setPool_writes _).seq (State.openUpdate_writes ..))).trans
      (State.finishPiece_keepsRequests ..)
  · exact .refl s

theorem State.examineHolds_keepsRequests : s.KeepsRequests s.examineHolds :=
  State.KeepsRequests.foldl (fun s h => s.examineHold_keepsRequests h) _ s

theorem State.examineIf_keepsRequests (left : Bool) : s.KeepsRequests (s.examineIf left) := by
  unfold State.examineIf
  split
  · exact s.examineHolds_keepsRequests
  · exact .refl s

theorem State.refuseHold_keepsRequests (c : RefusedCause) (h : HeldWrite) : s.KeepsRequests (s.refuseHold c h) :=
  (State.KeepsRequests.of_writes ((s.setPool_writes _).seq (State.post_writes ..))).trans (State.finishPiece_keepsRequests ..)

theorem State.holdPiece_keepsRequests (p : Port) (x : Spot) (ws : List WriteWord) : s.KeepsRequests (s.holdPiece p x ws) :=
  (State.KeepsRequests.of_writes (s.setPool_writes _)).trans (State.awaitPiece_keepsRequests ..)

theorem State.exhausted_keepsRequests (p : Port) (x : Spot) (a : Word) (ws : List WriteWord) :
    s.KeepsRequests (s.exhausted p x a ws) := by
  have posted := s.postExhausted_writes p x
  rw [s.exhausted_eq]
  split
  · exact (State.KeepsRequests.of_writes ((posted.seq (State.tearThrough_writes ..)).seq (State.setPlainRequest_writes ..))).trans
      (State.awaitPiece_keepsRequests ..)
  · exact (State.KeepsRequests.of_writes posted).trans (State.finishPiece_keepsRequests ..)
  · exact ((State.KeepsRequests.of_writes (posted.seq (State.earlyClose_writes ..))).trans
      (State.holdPiece_keepsRequests ..)).trans (State.examineHolds_keepsRequests _)

theorem State.stagePiece_keepsRequests (p : Port) (x : Spot) (a : Word) (ws : List WriteWord) :
    s.KeepsRequests (s.stagePiece p x a ws) := by
  unfold State.stagePiece
  dsimp only
  split
  · exact s.finishPiece_keepsRequests ..
  · split
    · exact ((State.KeepsRequests.of_writes (s.stageIn_writes ..)).trans (State.finishPiece_keepsRequests ..)).trans
        (State.examineIf_keepsRequests ..)
    · split
      · exact ((State.KeepsRequests.of_writes (s.openUpdate_writes ..)).trans (State.finishPiece_keepsRequests ..)).trans
          (State.examineIf_keepsRequests ..)
      · exact s.exhausted_keepsRequests ..

theorem State.releaseAndGiveBack_keepsRequests (pv : Port × ViewIx) : s.KeepsRequests (s.releaseAndGiveBack pv) := by
  unfold State.releaseAndGiveBack
  dsimp only
  have released := State.KeepsRequests.of_writes (s.releaseView_writes pv.1 pv.2)
  split
  · exact released
  · split
    · exact released.trans (State.giveBack_keepsRequests ..)
    · exact released

theorem State.releaseAll_keepsRequests (l : List (Port × ViewIx)) : s.KeepsRequests (s.releaseAll l) :=
  State.KeepsRequests.foldl (fun s x => s.releaseAndGiveBack_keepsRequests x) _ s

theorem State.giveBackAwaiting_keepsRequests (r : RegionId) : s.KeepsRequests (s.giveBackAwaiting r) := by
  refine State.KeepsRequests.foldl (fun s p => ?_) _ s
  split
  · exact s.giveBack_keepsRequests p
  · exact .refl s

theorem State.answerFromView_keepsRequests (p : Port) (v : ViewIx) (x : Spot) (n : Nat) :
    s.KeepsRequests (s.answerFromView p v x n) := by
  have answered : s.KeepsRequests ((s.finishPiece p n (statusOfMark (s.view p v).torn)
      (viewWords (s.definition x.region) (s.view p v) x.offset n)).setUseList p ((s.views.get p).useList.erase v ++ [v])) :=
    (s.finishPiece_keepsRequests ..).trans (.of_writes (State.setViews_writes ..))
  unfold State.answerFromView
  dsimp only
  split
  · exact answered.trans (.of_writes (State.releaseView_writes ..))
  · exact answered

theorem State.serveFromView_keepsRequests (p : Port) (v : ViewIx) (x : Spot) (n : Nat) :
    s.KeepsRequests (s.serveFromView p v x n) := by
  unfold State.serveFromView
  split
  · exact s.answerFromView_keepsRequests ..
  · exact s.awaitPiece_keepsRequests ..

theorem State.viewPiece_keepsRequests (p : Port) (x : Spot) (n : Nat) : s.KeepsRequests (s.viewPiece p x n) := by
  unfold State.viewPiece
  split
  · exact s.serveFromView_keepsRequests ..
  · split
    · exact s.awaitPiece_keepsRequests ..
    · exact (State.KeepsRequests.of_writes ((s.releaseView_writes ..).seq (State.openView_writes ..))).trans
        (State.serveFromView_keepsRequests ..)

theorem State.readOwn_keepsRequests (p : Port) (x : Spot) (n : Nat) (a : Word) : s.KeepsRequests (s.readOwn p x n a) := by
  unfold State.readOwn
  dsimp only
  split
  · exact s.finishPiece_keepsRequests ..
  · exact (State.KeepsRequests.of_writes (s.setPlainRequest_writes ..)).trans (State.awaitPiece_keepsRequests ..)

theorem State.handPiece_keepsRequests (p : Port) (r : Request) (k n : Nat) (x : Option Spot) :
    s.KeepsRequests (s.handPiece p r k n x) := by
  unfold State.handPiece
  split
  · exact s.plainPiece_keepsRequests ..
  · dsimp only
    split
    · split
      · exact s.readOwn_keepsRequests ..
      · exact s.stagePiece_keepsRequests ..
    · split
      · split
        · exact s.viewPiece_keepsRequests ..
        · exact s.plainPiece_keepsRequests ..
      · exact s.foreignWrite_keepsRequests ..

/-- A move of a router answers the head of its queue, or answers nothing. -/
theorem State.advance_requests (p : Port) :
    (∃ r rest, (s.port p).queue = r :: rest ∧ r.beats ≤ (s.port p).service.next ∧ s.advance p = s.respond p r rest) ∨
      s.KeepsRequests (s.advance p) := by
  unfold State.advance
  split
  · exact .inr (.refl s)
  · next r rest queue =>
    dsimp only
    split
    · next whole => exact .inl ⟨r, rest, queue, whole, rfl⟩
    · split
      · exact .inr (s.finishPiece_keepsRequests ..)
      · exact .inr (s.handPiece_keepsRequests ..)

theorem State.expireBuffer_keepsRequests (b : BufId) : s.KeepsRequests (s.expireBuffer b) := by
  unfold State.expireBuffer
  dsimp only
  refine State.KeepsRequests.trans (State.KeepsRequests.trans ?_ (.of_writes (State.post_writes ..)))
    (State.examineHolds_keepsRequests _)
  split
  · exact .of_writes (s.freeGathering_writes b)
  · exact .of_writes (s.closeBuffer_writes b)

theorem State.completeCapture_keepsRequests (c : Capture) : s.KeepsRequests (s.completeCapture c) := by
  unfold State.completeCapture
  dsimp only
  have ended := s.endCapture_writes c
  split
  · exact .of_writes ended
  · next v _ =>
    have filled := fun x => State.KeepsRequests.of_writes (ended.seq (State.setView_writes _ c.port v x))
    split
    · exact filled _
    · split
      · exact filled _
      · split
        · exact (filled _).trans (State.answerFromView_keepsRequests ..)
        · exact filled _

theorem State.faultCapture_keepsRequests (c : Capture) : s.KeepsRequests (s.faultCapture c) := by
  unfold State.faultCapture
  dsimp only
  have ended := s.endCapture_writes c
  split
  · exact .of_writes ended
  · next v _ =>
    have released := State.KeepsRequests.of_writes (ended.seq (State.releaseView_writes _ c.port v))
    refine State.KeepsRequests.trans ?_ (.of_writes (State.post_writes ..))
    split
    · exact released
    · split
      · exact released.trans (State.finishPiece_keepsRequests ..)
      · exact released

theorem State.endRead_keepsRequests : s.KeepsRequests s.endRead := by
  unfold State.endRead
  split
  · exact .refl s
  · refine State.KeepsRequests.trans ?_ (.of_writes (State.mapExecuting_writes ..))
    split
    · exact s.faultCapture_keepsRequests _
    · exact s.completeCapture_keepsRequests _

theorem State.endPlain_keepsRequests (p : Port) (as : List Answer) : s.KeepsRequests (s.endPlain p as) := by
  unfold State.endPlain
  split
  · exact .refl s
  · split
    · exact s.finishPiece_keepsRequests ..
    · exact s.finishPiece_keepsRequests ..
    · exact .refl s
    · exact .refl s
    · exact .refl s

theorem State.completeCommit_keepsRequests (job : CommitJob) : s.KeepsRequests (s.completeCommit job) := by
  rw [s.completeCommit_eq]
  exact ((State.KeepsRequests.of_writes (s.freedCommit_writes job)).trans (State.examineHolds_keepsRequests _)).trans
    (.of_writes (State.takeCommit_writes _))

theorem State.endTransaction_keepsRequests (q : Requester) (as : List Answer) (d : Bool) :
    s.KeepsRequests (s.endTransaction q as d) := by
  have idle := State.KeepsRequests.of_writes s.idlePort_writes
  obtain e | ⟨p, -, -, e⟩ | ⟨job, -, -, -, e⟩ | ⟨-, -, e⟩ := s.endTransaction_cases q as d <;> rw [e]
  · exact idle
  · exact idle.trans (State.endPlain_keepsRequests ..)
  · exact idle.trans (State.completeCommit_keepsRequests ..)
  · exact idle.trans (State.endRead_keepsRequests _)

theorem State.takeAnswers_keepsRequests (t : Transaction) (f : List Answer → List Answer) :
    s.KeepsRequests (s.takeAnswers t f) := by
  have recorded := State.KeepsRequests.of_writes (s.recordAnswers_writes t f)
  unfold State.takeAnswers
  dsimp only
  split
  · exact recorded.trans (State.endTransaction_keepsRequests ..)
  · exact recorded

/-- But for a router's response, whatever happens in the course of a step keeps the requests. -/
theorem Quiet.keepsRequests {s t : State} (q : Quiet s t) :
    (∃ p r rest, (s.port p).queue = r :: rest ∧ r.beats ≤ (s.port p).service.next ∧ t = s.respond p r rest) ∨ s.KeepsRequests t := by
  cases q with
  | choose n => exact .inr (.of_writes (s.setChoices_writes n))
  | advance p _ =>
    obtain ⟨r, rest, h⟩ | h := s.advance_requests p
    · exact .inl ⟨p, r, rest, h⟩
    · exact .inr h
  | complete => exact .inr (.of_writes s.completeLong_writes)
  | refuse h _ => exact .inr (s.refuseHold_keepsRequests ..)
  | expireBuffer b _ => exact .inr (s.expireBuffer_keepsRequests b)
  | expireView p v _ => exact .inr (.of_writes (s.expireView_writes p v))
  | answers tr f _ => exact .inr (s.takeAnswers_keepsRequests tr f)

theorem State.retireTaken_keepsRequests (r : RegionId) (m : DrainMode) : s.KeepsRequests (s.retireTaken r m).1 := by
  have taken : s.KeepsRequests
      (((s.setRegionState r .draining).releaseAll (s.viewsWhere fun _ x => x.region = r)).giveBackAwaiting r) :=
    ((State.KeepsRequests.of_writes (s.setRegions_writes _)).trans (State.releaseAll_keepsRequests ..)).trans
      (State.giveBackAwaiting_keepsRequests ..)
  unfold State.retireTaken
  dsimp only
  refine State.KeepsRequests.trans ?_ (State.examineHolds_keepsRequests _)
  refine State.KeepsRequests.trans ?_ (State.KeepsRequests.foldl (fun s h => s.refuseHold_keepsRequests .retired h) _ _)
  cases m with
  | abandon => exact taken.trans (State.KeepsRequests.foldl (fun s b => .of_writes (s.abandonBuffer_writes .retire b)) _ _)
  | close => exact taken.trans (State.KeepsRequests.foldl (fun s b => .of_writes (s.closeBuffer_writes b)) _ _)

theorem State.flushTaken_keepsRequests (p : Port) : s.KeepsRequests (s.flushTaken p).1 := by
  unfold State.flushTaken
  exact ((State.KeepsRequests.of_writes (s.abandonAll_writes p .flush)).trans (State.releaseAll_keepsRequests ..)).trans
    (State.examineHolds_keepsRequests _)

theorem State.doRestart_keepsRequests : s.KeepsRequests s.doRestart.1 := by
  unfold State.doRestart
  exact (((State.KeepsRequests.of_writes s.discardUpdates_writes).trans (State.releaseAll_keepsRequests ..)).trans
    (.of_writes (State.setEvents_writes ..))).trans (State.examineHolds_keepsRequests _)

theorem Carried.keepsRequests {s t : State} {x : Reply} (c : Carried s t x) : s.KeepsRequests t := by
  cases c with
  | done d => exact .refl s
  | fail c => exact .refl s
  | define r d _ _ _ => exact .of_writes (s.setRegions_writes _)
  | activate r _ _ => exact .of_writes (s.setRegions_writes _)
  | retire r m _ => exact s.retireTaken_keepsRequests r m
  | clear r d _ => exact .of_writes ((s.setRegions_writes _).seq (State.clearWatches_writes ..))
  | clean r k d _ _ => exact .of_writes (s.setVersions_writes _)
  | setWatch i w r d => exact .of_writes (s.setWatch_writes ..)
  | clearWatch i d => exact .of_writes (s.setWatch_writes ..)
  | readEvents n d => exact .of_writes (s.setEvents_writes _)
  | setMasks q a => exact .of_writes (s.setEvents_writes _)
  | flush p => exact s.flushTaken_keepsRequests p
  | restart => exact s.doRestart_keepsRequests

theorem State.perform_keepsRequests (c : Command) : s.KeepsRequests (s.perform c) :=
  (s.carryOut_carried c).keepsRequests.trans (.of_writes (State.conclude_writes ..))

/-- A port reset drops its port's requests and no other's; no response goes back (02 R38, log 14). -/
theorem State.resetPort_requests (p : Port) : ((s.resetPort p).port p).queue = [] ∧
    ((s.resetPort p).port p).resetLine = true ∧ ((s.resetPort p).port p).responses = (s.port p).responses ∧
    ∀ q, q ≠ p → ((s.resetPort p).port q).queue = (s.port q).queue ∧
      ((s.resetPort p).port q).responses = (s.port q).responses := by
  have after : (s.dropRequests p).KeepsRequests (s.resetPort p) := by
    unfold State.resetPort
    exact ((State.KeepsRequests.of_writes ((State.abandonAll_writes ..).seq (State.dropHold_writes ..))).trans
      (State.releaseAll_keepsRequests ..)).trans (.of_writes (State.resetPlain_writes ..))
  have dropped : ∀ q, (s.dropRequests p).port q =
      if q = p then { s.port p with queue := [], service := .fresh, resetLine := true } else s.port q :=
    fun q => s.setPort_port p q _
  refine ⟨?_, ?_, ?_, fun q ne => ⟨?_, ?_⟩⟩
  · rw [after.queue, dropped, if_pos rfl]
  · rw [after.resetLine, dropped, if_pos rfl]
  · rw [after.responses, dropped, if_pos rfl]
  · rw [after.queue, dropped, if_neg ne]
  · rw [after.responses, dropped, if_neg ne]

end

/-! ### One response for each request (02 R26) -/

/-- Responses are only added to, and requests answered and waiting keep their number together. -/
structure State.AnswersRequests (s t : State) : Prop where
  grows : ∀ p, (s.port p).responses <+: (t.port p).responses
  number : ∀ p, (t.port p).responses.length + (t.port p).queue.length = (s.port p).responses.length + (s.port p).queue.length
  empty : ∀ p, (s.port p).queue = [] → (t.port p).responses = (s.port p).responses ∧ (t.port p).queue = []

namespace State.AnswersRequests

variable {s t u : State}

theorem of_keeps (h : s.KeepsRequests t) : s.AnswersRequests t where
  grows p := by rw [h.responses]
  number p := by rw [h.responses, h.queue]
  empty p e := ⟨h.responses p, (h.queue p).trans e⟩

protected theorem refl (s : State) : s.AnswersRequests s := .of_keeps (.refl s)

protected theorem trans (h : s.AnswersRequests t) (k : t.AnswersRequests u) : s.AnswersRequests u where
  grows p := (h.grows p).trans (k.grows p)
  number p := (k.number p).trans (h.number p)
  empty p e := ⟨(k.empty p (h.empty p e).2).1.trans (h.empty p e).1, (k.empty p (h.empty p e).2).2⟩

theorem respond {p : Port} {r : Request} {rest : List Request} (queue : (s.port p).queue = r :: rest) :
    s.AnswersRequests (s.respond p r rest) := by
  have e : ∀ q, (s.respond p r rest).port q = if q = p then { s.port p with
      queue := rest, service := .fresh, responses := (s.port p).responses ++ [responseOf r (s.port p).service] } else s.port q :=
    fun q => s.setPort_port p q _
  refine ⟨fun q => ?_, fun q => ?_, fun q none => ?_⟩ <;> rw [e] <;> split
  · next eq => subst eq; exact List.prefix_append ..
  · exact List.prefix_rfl
  · next eq => subst eq; simp [queue]; omega
  · rfl
  · next eq => subst eq; rw [queue] at none; cases none
  · exact ⟨rfl, none⟩

theorem quiet (q : Quiet s t) : s.AnswersRequests t := by
  obtain ⟨p, r, rest, queue, -, rfl⟩ | h := q.keepsRequests
  · exact .respond queue
  · exact .of_keeps h

theorem quiets (q : Quiets s t) : s.AnswersRequests t := q.relates .refl (fun _ _ _ => .trans) fun _ _ => .quiet

theorem settle (s : State) : s.AnswersRequests s.settle := .quiets s.settle_quiets

end State.AnswersRequests

/-- Hard reset empties every queue and takes no response back (02 R42, log 14). -/
theorem State.hardReset_port (s : State) (p : Port) :
    s.hardReset.port p = { s.port p with queue := [], service := .fresh } := by cases p <;> rfl

/-- A step that is no reset and no request's arrival answers requests that were waiting, and does nothing else with them. -/
theorem Steps.answersRequests {s t : State} {c : Instr} (h : Steps s c t) (hard : c ≠ .hardReset) (reset : ∀ q, c ≠ .portReset q)
    (taken : ∀ q r, c ≠ .requestTaken q r) : s.AnswersRequests t := by
  obtain q | ⟨u, q, rfl⟩ := h
  · cases q with
    | hardReset => exact absurd rfl hard
    | lineFalls x => exact .of_keeps (.of_ports rfl)
    | resetLineFalls p =>
      refine ⟨fun q => ?_, fun q => ?_, fun q none => ?_⟩ <;> rw [State.setPort_port] <;> split
      · next eq => rw [eq]
      · exact List.prefix_rfl
      · next eq => rw [eq]
      · rfl
      · next eq => subst eq; exact ⟨rfl, none⟩
      · exact ⟨rfl, none⟩
    | tick _ _ =>
      have filled := (State.setTimebase_writes s.expireDue (s.expireDue.timebase + 1)).seq (State.fillEntry_writes _)
      exact State.AnswersRequests.trans (.quiets s.expireDue_quiets) (.of_keeps (.of_writes filled))
    | grant _ => exact .of_keeps (.of_writes s.grant_writes)
    | takeCommit => exact .of_keeps (.of_writes s.takeCommit_writes)
    | requestCapture => exact .of_keeps (.of_writes s.requestCapture_writes)
    | complete => exact .of_keeps (.of_writes s.completeLong_writes)
    | link l => exact .of_keeps (.of_writes l.writes)
  · refine State.AnswersRequests.trans ?_ (.settle u)
    cases q with
    | portReset p => exact absurd rfl (reset p)
    | taken p r _ _ => exact absurd rfl (taken p r)
    | command v k l _ => exact .of_keeps ((State.KeepsRequests.of_writes l.writes).trans (v.perform_keepsRequests k))
    | quiet q => exact .quiets q.to_reflTransGen

/-- A request's arrival that the port takes puts it at the tail of the port's queue, before the routers move. -/
theorem State.push_answers (s : State) (p q : Port) (r : Request) :
    let t := (s.setPort p { s.port p with queue := (s.port p).queue ++ [r] }).settle
    (s.port q).responses <+: (t.port q).responses ∧ (t.port q).responses.length + (t.port q).queue.length =
      (s.port q).responses.length + (s.port q).queue.length + if p = q then 1 else 0 := by
  intro t
  have after := State.AnswersRequests.settle (s.setPort p { s.port p with queue := (s.port p).queue ++ [r] })
  have grows := after.grows q
  have number := after.number q
  rw [State.setPort_port] at grows number
  by_cases eq : q = p
  · subst eq
    rw [if_pos rfl] at grows number
    refine ⟨grows, number.trans ?_⟩
    simp
    omega
  · rw [if_neg eq] at grows number
    exact ⟨grows, number.trans (by rw [if_neg (Ne.symm eq), Nat.add_zero])⟩

/-- The reset of a port leaves it no request and takes no response back; every other port answers what waited. -/
theorem State.portReset_requests (s : State) (p : Port) :
    let t := ((s.resetPort p).examineHolds).settle
    ((t.port p).responses = (s.port p).responses ∧ (t.port p).queue = []) ∧
    ∀ q, q ≠ p → (s.port q).responses <+: (t.port q).responses ∧
      (t.port q).responses.length + (t.port q).queue.length = (s.port q).responses.length + (s.port q).queue.length := by
  intro t
  obtain ⟨queue, -, responses, others⟩ := s.resetPort_requests p
  have after : (s.resetPort p).AnswersRequests t :=
    State.AnswersRequests.trans (.of_keeps (State.examineHolds_keepsRequests _)) (.settle _)
  refine ⟨⟨(after.empty p queue).1.trans responses, (after.empty p queue).2⟩, fun q ne => ?_⟩
  have grows := after.grows q
  have number := after.number q
  rw [(others q ne).2] at grows number
  rw [(others q ne).1] at number
  exact ⟨grows, number⟩

/-- Settles O60: a step answers requests that were waiting, but for a request taken and those a reset drops. -/
theorem oneResponsePerRequest : Obligations.OneResponsePerRequest := by
  intro c s t p e
  have other : (∀ q r, c ≠ .requestTaken q r) → c ≠ .hardReset → (∀ q, c ≠ .portReset q) → s.AnswersRequests t :=
    fun taken hard reset => (Steps.of_exec e).answersRequests hard reset taken
  cases c
  case hardReset =>
    cases e
    rw [State.hardReset_port]
    exact ⟨List.prefix_rfl, fun h => absurd rfl h, fun _ => ⟨rfl, rfl⟩⟩
  case portReset q =>
    cases e
    obtain ⟨⟨responses, queue⟩, others⟩ := s.portReset_requests q
    by_cases eq : p = q
    · subst eq
      exact ⟨responses ▸ List.prefix_rfl, fun _ h => absurd rfl h, fun _ => ⟨responses, queue⟩⟩
    · obtain ⟨grows, number⟩ := others p eq
      exact ⟨grows, fun _ _ => number, fun h => by simp at h; exact absurd h.symm eq⟩
  case requestTaken q r =>
    have row : t = if s.canTake q && r.wellFormed then
        (s.setPort q { s.port q with queue := (s.port q).queue ++ [r] }).settle else s := by cases e; rfl
    by_cases taken : (s.canTake q && r.wellFormed) = true
    · rw [if_pos taken] at row
      rw [Bool.and_eq_true] at taken
      obtain ⟨grows, number⟩ := s.push_answers q p r
      refine ⟨row ▸ grows, fun _ _ => row ▸ number.trans ?_, by simp⟩
      by_cases eq : q = p
      · subst eq; simp [taken]
      · simp [eq]
    · rw [if_neg taken] at row
      subst row
      refine ⟨List.prefix_rfl, fun _ _ => ?_, by simp⟩
      rw [Bool.and_eq_true] at taken
      dsimp only
      rw [if_neg]
      · rfl
      · rintro ⟨rfl, can, formed⟩
        exact taken ⟨can, formed⟩
  all_goals
    have h := other (by simp) (by simp) (by simp)
    exact ⟨h.grows p, fun _ _ => h.number p, by simp⟩

end Sys2Proof.Machine

/-! SUPPORT. Versions (01 R8, R17): no part of a step changes a version but a commit's completion, by one, hard reset, and the tick that
fills an entry. -/

namespace Sys2Proof.Machine

/-! ### Entries -/

/-- A cell of a table after a write at a number. -/
theorem cell_putD {α : Type} {n : Nat} (v : Vector α n) (k : Nat) (i : Fin n) (x : α) :
    cell (putD v k x) i = if i.val = k then x else cell v i := by
  have h := cellD_putD v k i.val x x
  rw [cellD_eq _ _ i.isLt, cellD_eq _ _ i.isLt] at h
  rw [show (⟨i.val, i.isLt⟩ : Fin n) = i from rfl] at h
  rw [h]
  by_cases e : i.val = k
  · rw [if_pos ⟨e, e ▸ i.isLt⟩, if_pos e]
  · rw [if_neg fun c => e c.1, if_neg e]

/-- The entry of a record that lies in the table is the table's cell at its number. -/
theorem State.entry_eq_cell (s : State) {r : RegionId} {k : Nat} {i : Fin 4096} (h : i.val = (s.definition r).versionBase + k) :
    s.entry r k = cell s.versions i := by
  unfold State.entry
  rw [← h, cellD_eq _ _ i.isLt]

/-! ### What the parts of a step do to the versions -/

/-- Every version is as it was, or one commit's transaction has ended and one version has advanced by one (01 R17); no commit is in
flight that was not before. -/
structure State.CountsCommits (s t : State) : Prop where
  outstanding : ∀ tr, t.mem.outstanding = some tr → ∃ tr', s.mem.outstanding = some tr' ∧ tr'.requester = tr.requester
  writing : ∀ job, t.engine = .writing job → ∃ job', s.engine = .writing job'
  version : ∀ k : Fin 4096, (cell t.versions k).version = (cell s.versions k).version ∨
    ((cell t.versions k).version = (cell s.versions k).version + 1 ∧ (∃ job, s.engine = .writing job) ∧
      ∃ tr, s.mem.outstanding = some tr ∧ tr.requester = .commit ∧ t.mem.outstanding = none)

namespace State.CountsCommits

variable {s t u : State}

/-- With no version changed, and the transaction and the engine as they were. -/
theorem of_same (outstanding : t.mem.outstanding = s.mem.outstanding) (engine : t.engine = s.engine)
    (version : ∀ k : Fin 4096, (cell t.versions k).version = (cell s.versions k).version) : s.CountsCommits t :=
  ⟨fun tr h => ⟨tr, outstanding ▸ h, rfl⟩, fun job h => ⟨job, engine ▸ h⟩, fun k => .inl (version k)⟩

theorem of_writes {fs : List Field} (h : s.Writes fs t) (o : Field.outstanding ∉ fs := by decide)
    (e : Field.engine ∉ fs := by decide) (v : Field.versions ∉ fs := by decide) : s.CountsCommits t :=
  .of_same (h.outstanding o) (h.engine e) fun _ => by rw [h.versions v]

theorem of_outside (h : s.OutsideRouters t) : s.CountsCommits t := .of_same h.outstanding h.engine h.versions

protected theorem refl (s : State) : s.CountsCommits s := .of_same rfl rfl fun _ => rfl

protected theorem trans (h : s.CountsCommits t) (k : t.CountsCommits u) : s.CountsCommits u where
  outstanding tr o := by
    obtain ⟨tr', o', e⟩ := k.outstanding tr o
    obtain ⟨tr'', o'', e'⟩ := h.outstanding tr' o'
    exact ⟨tr'', o'', e'.trans e⟩
  writing job w := by
    obtain ⟨job', w'⟩ := k.writing job w
    exact h.writing job' w'
  version i := by
    obtain e | ⟨e, ⟨job, w⟩, tr, o, q, none⟩ := h.version i <;> obtain e' | ⟨e', ⟨job', w'⟩, tr', o', q', none'⟩ := k.version i
    · exact .inl (e'.trans e)
    · obtain ⟨tr'', o'', q''⟩ := h.outstanding tr' o'
      exact .inr ⟨e'.trans (by rw [e]), h.writing job' w', tr'', o'', q''.trans q', none'⟩
    · refine .inr ⟨e'.trans e, ⟨job, w⟩, tr, o, q, Option.eq_none_iff_forall_ne_some.2 fun x hx => ?_⟩
      obtain ⟨y, hy, -⟩ := k.outstanding x hx
      rw [none] at hy
      cases hy
    · rw [none] at o'
      cases o'

end State.CountsCommits

section
variable (s : State)

/-- The engine, when it takes a buffer, enters REQUESTING (04 R70). -/
theorem State.takeCommit_engine : s.takeCommit.engine = s.engine ∨ ∃ job, s.takeCommit.engine = .requesting job := by
  unfold State.takeCommit
  split
  · exact .inl rfl
  · exact .inl rfl
  · split
    · exact .inl rfl
    · exact .inr ⟨_, rfl⟩

/-- A completion advances its record's version by one, and no other (01 R17). -/
theorem State.settleRecord_version (b : BufId) (faulted : Bool) (k : Fin 4096) :
    (cell (s.settleRecord b faulted).versions k).version = if k.val =
      (s.definition (s.buffer b).region).versionBase + (s.buffer b).record then (cell s.versions k).version + 1
      else (cell s.versions k).version := by
  have e : (s.settleRecord b faulted).versions = putD s.versions
      ((s.definition (s.buffer b).region).versionBase + (s.buffer b).record)
      ⟨(s.entry (s.buffer b).region (s.buffer b).record).version + 1, markAfterCommit faulted
        (covers (s.definition (s.buffer b).region) (s.buffer b).mask) (s.buffer b).preTorn
        (s.entry (s.buffer b).region (s.buffer b).record).torn⟩ := by
    unfold State.settleRecord
    dsimp only
    split
    · exact ((State.makePreTorn_writes _ _ _ _).seq (State.post_writes ..)).versions
    · rfl
  rw [e, cell_putD]
  split
  · next eq => rw [s.entry_eq_cell eq]
  · rfl

theorem State.settledCommit_versions (job : CommitJob) :
    (s.settledCommit job).versions = (s.settleRecord job.buffer (job.answers.any Answer.isFault)).versions :=
  (State.evaluateWatches_writes ..).versions

theorem State.completeCommit_versions (job : CommitJob) :
    (s.completeCommit job).versions = (s.settleRecord job.buffer (job.answers.any Answer.isFault)).versions := by
  rw [← s.settledCommit_versions job, s.completeCommit_eq]
  exact (((((State.freeCommitted_writes ..).seq (State.mapExecuting_writes ..)).seq (State.setEngine_writes ..)).seq
    (State.examineHolds_writes (s.freedCommit job))).seq (State.takeCommit_writes _)).versions

theorem State.completeCommit_version (job : CommitJob) (k : Fin 4096) :
    (cell (s.completeCommit job).versions k).version = (cell s.versions k).version ∨
      (cell (s.completeCommit job).versions k).version = (cell s.versions k).version + 1 := by
  rw [s.completeCommit_versions, s.settleRecord_version]
  split
  · exact .inr rfl
  · exact .inl rfl

/-- A completion leaves the engine IDLE or requesting its next burst (04 R79). -/
theorem State.completeCommit_engine (job job' : CommitJob) : (s.completeCommit job).engine ≠ .writing job' := by
  rw [s.completeCommit_eq]
  obtain e | ⟨_, e⟩ := (s.freedCommit job).examineHolds.takeCommit_engine
  · rw [e, (State.examineHolds_writes _).engine]
    nofun
  · rw [e]
    nofun

theorem State.handOn_writing (q : Requester) (f : List Answer → List Answer) {job : CommitJob}
    (h : (s.handOn q f).engine = .writing job) : ∃ job', s.engine = .writing job' := by
  cases q with
  | plain p => exact ⟨job, h⟩
  | commit =>
    cases e : s.engine with
    | writing job' => exact ⟨job', rfl⟩
    | idle => simp [State.handOn, e] at h
    | requesting job' => simp [State.handOn, e] at h
  | capture =>
    refine ⟨job, ?_⟩
    cases c : s.captures with
    | nil => simpa [State.handOn, c] using h
    | cons c cs => simpa [State.handOn, c] using h

theorem State.recordAnswers_countsCommits (t : Transaction) (f : List Answer → List Answer) (o : s.mem.outstanding = some t) :
    s.CountsCommits (s.recordAnswers t f) where
  outstanding tr h := by
    rw [s.recordAnswers_mem] at h
    cases h
    exact ⟨t, o, rfl⟩
  writing job h := by
    unfold State.recordAnswers at h
    dsimp only at h
    split at h
    · exact ⟨job, h⟩
    · exact State.handOn_writing (s.withOutstanding { t with answers := f t.answers }) _ _ h
  version k := .inl (by rw [(s.recordAnswers_writes t f).versions])

theorem State.idlePort_countsCommits : s.CountsCommits s.idlePort :=
  ⟨fun _ h => (nomatch h), fun job h => ⟨job, h⟩, fun _ => .inl rfl⟩

/-- The end of a transaction changes a version only where the commit engine's own ends. -/
theorem State.endTransaction_countsCommits {t : Transaction} (o : s.mem.outstanding = some t) (as : List Answer) (d : Bool) :
    s.CountsCommits (s.endTransaction t.requester as d) := by
  have idle := s.idlePort_countsCommits
  obtain e | ⟨p, -, -, e⟩ | ⟨job, q, -, writing, e⟩ | ⟨-, -, e⟩ := s.endTransaction_cases t.requester as d <;> rw [e]
  · exact idle
  · exact idle.trans (.of_writes (State.endPlain_writes ..))
  · have ended : (s.idlePort.completeCommit job).mem.outstanding = none := (State.completeCommit_writes s.idlePort job).outstanding
    refine ⟨fun tr h => absurd (ended.symm.trans h) nofun, fun job' h => absurd h (s.idlePort.completeCommit_engine job job'),
      fun k => ?_⟩
    exact (s.idlePort.completeCommit_version job k).imp_right fun v => ⟨v, ⟨job, writing⟩, t, o, q, ended⟩
  · exact idle.trans (.of_writes (State.endRead_writes _))

theorem State.takeAnswers_countsCommits {t : Transaction} (o : s.mem.outstanding = some t) (f : List Answer → List Answer) :
    s.CountsCommits (s.takeAnswers t f) := by
  have recorded := s.recordAnswers_countsCommits t f o
  have out : (s.recordAnswers t f).mem.outstanding = some { t with answers := f t.answers } := by rw [s.recordAnswers_mem]
  unfold State.takeAnswers
  dsimp only
  split
  · exact recorded.trans (State.endTransaction_countsCommits _ out ..)
  · exact recorded

theorem Quiet.countsCommits {s t : State} (q : Quiet s t) : s.CountsCommits t := by
  cases q with
  | choose n => exact .of_outside (s.setChoices_outside n)
  | advance p _ => exact .of_outside (s.advance_outside p)
  | complete => exact .of_writes s.completeLong_writes
  | refuse h _ => exact .of_outside (s.refuseHold_outside ..)
  | expireBuffer b _ => exact .of_writes (s.expireBuffer_writes b)
  | expireView p v _ => exact .of_writes (s.expireView_writes p v)
  | answers tr f o => exact s.takeAnswers_countsCommits o f

theorem Quiets.countsCommits {s t : State} (q : Quiets s t) : s.CountsCommits t :=
  q.relates .refl (fun _ _ _ => .trans) fun _ _ => Quiet.countsCommits

theorem Carried.countsCommits {s t : State} {x : Reply} (c : Carried s t x) : s.CountsCommits t := by
  cases c with
  | done d => exact .refl s
  | fail c => exact .refl s
  | define r d _ _ _ => exact .of_writes (s.setRegions_writes _)
  | activate r _ _ => exact .of_writes (s.setRegions_writes _)
  | retire r m _ => exact .of_writes (s.retireTaken_writes r m)
  | clear r d _ => exact .of_writes ((s.setRegions_writes _).seq (State.clearWatches_writes ..))
  | clean r k d _ _ => exact .of_outside (s.setMark_outside ..)
  | setWatch i w r d => exact .of_writes (s.setWatch_writes ..)
  | clearWatch i d => exact .of_writes (s.setWatch_writes ..)
  | readEvents n d => exact .of_writes (s.setEvents_writes _)
  | setMasks q a => exact .of_writes (s.setEvents_writes _)
  | flush p => exact .of_writes (s.flushTaken_writes p)
  | restart => exact .of_writes s.doRestart_writes

theorem State.resetPort_countsCommits (p : Port) : s.CountsCommits (s.resetPort p) := by
  have dropped : s.CountsCommits ((((s.dropRequests p).abandonAll p .portReset).dropHold p).releaseAll (s.viewsOfPort p)) :=
    .of_writes (((s.dropRequests_writes p).seq (State.abandonAll_writes ..)).seq (State.dropHold_writes ..) |>.seq
      (State.releaseAll_writes ..))
  refine dropped.trans ⟨fun tr h => ?_, fun job h => ⟨job, h⟩, fun _ => .inl rfl⟩
  obtain ⟨x, out, e⟩ := Option.map_eq_some_iff.1 h
  refine ⟨x, out, ?_⟩
  rw [← e]
  split <;> rfl

theorem Starts.countsCommits {s t : State} {c : Instr} (q : Starts s c t) : s.CountsCommits t := by
  cases q with
  | portReset p => exact (s.resetPort_countsCommits p).trans (.of_writes (State.examineHolds_writes _))
  | taken p r _ _ => exact .of_writes (s.setPort_writes ..)
  | command u k l _ =>
    exact (State.CountsCommits.of_writes l.writes).trans ((u.carryOut_carried k).countsCommits.trans
      (.of_writes (State.conclude_writes ..)))
  | quiet q => exact Quiets.countsCommits q.to_reflTransGen

end

/-! ### The tick (01 R8) -/

/-- Definitions stand, and no ACTIVATE executes that did not before with the same count of filled entries. -/
structure State.KeepsActivate (s t : State) : Prop where
  definition : ∀ r, t.definition r = s.definition r
  activate : ∀ r n, t.link.state = .executing (.activate r n) → s.link.state = .executing (.activate r n)

namespace State.KeepsActivate

variable {s t u : State}

protected theorem refl (s : State) : s.KeepsActivate s := ⟨fun _ => rfl, fun _ _ h => h⟩

protected theorem trans (h : s.KeepsActivate t) (k : t.KeepsActivate u) : s.KeepsActivate u :=
  ⟨fun r => (k.definition r).trans (h.definition r), fun r n e => h.activate r n (k.activate r n e)⟩

theorem of_writes {fs : List Field} (h : s.Writes fs t) (r : Field.regions ∉ fs := by decide) (l : Field.link ∉ fs := by decide) :
    s.KeepsActivate t :=
  ⟨fun q => by rw [State.definition, State.definition, State.region, State.region, h.regions r], fun _ _ e => h.link l ▸ e⟩

end State.KeepsActivate

section
variable (s : State)

/-- Moving a region to a state leaves every definition. -/
@[simp] theorem State.setRegionState_definition (r q : RegionId) (x : RegionState) :
    (s.setRegionState r x).definition q = s.definition q := by
  unfold State.setRegionState State.definition
  rw [State.setRegion_region]
  split
  · next e => rw [e]
  · rfl

@[simp] theorem State.completeLong_definition (r : RegionId) : s.completeLong.definition r = s.definition r := by
  obtain h | ⟨q, _, -, -, h⟩ | ⟨q, _, _, _, -, -, h⟩ | ⟨_, _, -, h⟩ | ⟨_, _, _, _, -, h⟩ := s.completeLong_cases
  · rw [h]
  · rw [h]; exact s.setRegionState_definition q r _
  · rw [h]; exact s.setRegionState_definition q r _
  · rw [h]; rfl
  · rw [h]; rfl

/-- A completion leaves the executing command as it was, or a result. -/
theorem State.completeLong_state : s.completeLong = s ∨ ∃ l, s.completeLong.link.state = .result l 0 := by
  obtain h | ⟨q, _, -, -, h⟩ | ⟨q, _, _, _, -, -, h⟩ | ⟨_, _, -, h⟩ | ⟨_, _, _, _, -, h⟩ := s.completeLong_cases
  · exact .inl h
  all_goals exact .inr ⟨_, by rw [h]; rfl⟩

theorem State.completeLong_keepsActivate : s.KeepsActivate s.completeLong := by
  refine ⟨s.completeLong_definition, fun r n e => ?_⟩
  obtain h | ⟨l, h⟩ := s.completeLong_state
  · rwa [h] at e
  · rw [h] at e
    cases e

/-- Changing what the link holds of the executing command, by a change that makes no ACTIVATE and leaves one as it is. -/
theorem State.mapExecuting_keepsActivate (f : Executing → Executing) (hf : ∀ e r n, f e = .activate r n → e = .activate r n) :
    s.KeepsActivate (s.mapExecuting f) := by
  refine ⟨fun r => ?_, fun r n h => ?_⟩
  · rw [State.definition, State.definition, State.region, State.region, (s.mapExecuting_writes f).regions]
  · unfold State.mapExecuting at h
    split at h
    · exact h
    · exact h
    · exact h
    · next e l => rw [l, hf e r n (LinkState.executing.inj h)]

theorem Executing.afterCommit_activate (q : RegionId) (e : Executing) (r : RegionId) (n : Nat)
    (h : e.afterCommit q = .activate r n) : e = .activate r n := by
  cases e with
  | activate a n => exact h
  | retire a n c v => unfold Executing.afterCommit at h; dsimp only at h; split at h <;> cases h
  | flushPort n v w => cases h
  | restart g c v f wm wc => cases h

theorem Executing.afterCapture_activate (e : Executing) (r : RegionId) (n : Nat) (h : e.afterCapture = .activate r n) :
    e = .activate r n := by
  cases e with
  | activate a n => exact h
  | retire a n c v => cases h
  | flushPort n v w => cases h
  | restart g c v f wm wc => cases h

theorem State.completeCommit_keepsActivate (job : CommitJob) : s.KeepsActivate (s.completeCommit job) := by
  have freed : s.KeepsActivate (((s.settledCommit job).freeCommitted job.buffer).mapExecuting fun e =>
      e.afterCommit (s.buffer job.buffer).region) :=
    .trans (.of_writes ((s.settledCommit_writes job).seq (State.freeCommitted_writes ..)))
      (State.mapExecuting_keepsActivate _ _ (Executing.afterCommit_activate _))
  rw [s.completeCommit_eq]
  exact freed.trans (.of_writes (((State.setEngine_writes ..).seq (State.examineHolds_writes (s.freedCommit job))).seq
    (State.takeCommit_writes _)))

theorem State.endRead_keepsActivate : s.KeepsActivate s.endRead := by
  unfold State.endRead
  split
  · exact .refl s
  · refine State.KeepsActivate.trans ?_ (State.mapExecuting_keepsActivate _ _ Executing.afterCapture_activate)
    split
    · exact .of_writes (s.faultCapture_writes _)
    · exact .of_writes (s.completeCapture_writes _)

theorem State.endTransaction_keepsActivate (q : Requester) (as : List Answer) (d : Bool) :
    s.KeepsActivate (s.endTransaction q as d) := by
  have idle := State.KeepsActivate.of_writes s.idlePort_writes
  obtain e | ⟨p, -, -, e⟩ | ⟨job, -, -, -, e⟩ | ⟨-, -, e⟩ := s.endTransaction_cases q as d <;> rw [e]
  · exact idle
  · exact idle.trans (.of_writes (State.endPlain_writes ..))
  · exact idle.trans (State.completeCommit_keepsActivate ..)
  · exact idle.trans (State.endRead_keepsActivate _)

theorem State.takeAnswers_keepsActivate (t : Transaction) (f : List Answer → List Answer) : s.KeepsActivate (s.takeAnswers t f) := by
  have recorded := State.KeepsActivate.of_writes (s.recordAnswers_writes t f)
  unfold State.takeAnswers
  dsimp only
  split
  · exact recorded.trans (State.endTransaction_keepsActivate ..)
  · exact recorded

theorem Quiet.keepsActivate {s t : State} (q : Quiet s t) : s.KeepsActivate t := by
  cases q with
  | choose n => exact .of_writes (s.setChoices_writes n)
  | advance p _ => exact .of_writes (s.advance_writes p)
  | complete => exact s.completeLong_keepsActivate
  | refuse h _ => exact .of_writes (s.refuseHold_writes ..)
  | expireBuffer b _ => exact .of_writes (s.expireBuffer_writes b)
  | expireView p v _ => exact .of_writes (s.expireView_writes p v)
  | answers tr f o => exact s.takeAnswers_keepsActivate tr f

theorem Quiets.keepsActivate {s t : State} (q : Quiets s t) : s.KeepsActivate t :=
  q.relates .refl (fun _ _ _ => .trans) fun _ _ => Quiet.keepsActivate

/-- A tick writes an entry only while an ACTIVATE executes, and that entry alone (01 R8). -/
theorem State.fillEntry_versions (k : Fin 4096) : cell s.fillEntry.versions k = cell s.versions k ∨
    (cell s.fillEntry.versions k = .initial ∧ ∃ r n, s.link.state = .executing (.activate r n) ∧
      k.val = (s.definition r).versionBase + n) := by
  obtain ⟨r, n, l, e⟩ | ⟨-, e⟩ := s.fillEntry_cases <;> rw [e]
  · have w : (s.filled r n).completeLong.versions = putD s.versions ((s.definition r).versionBase + n) .initial :=
      (State.completeLong_writes _).versions
    rw [w, cell_putD]
    split
    · next eq => exact .inr ⟨rfl, r, n, l, eq⟩
    · exact .inl rfl
  · exact .inl rfl

end

/-- While an ACTIVATE executes, the rows of the other long commands' completions change nothing. -/
theorem State.ticks_of_activate {s t : State} {c : Instr} {r : RegionId} {n : Nat} (ticks : Ticks c)
    (l : s.link.state = .executing (.activate r n)) (e : exec c s = .next t) (ne : t ≠ s) :
    c = .timebaseTick ∨ c = .activateComplete .tick := by
  have other : ∀ k, k ≠ .activate → s.completing k .tick = s := fun k h => by
    unfold State.completing State.executes
    rw [l]
    simp [Executing.command, Ne.symm h]
  obtain rfl | rfl | rfl | rfl | rfl := ticks
  · exact .inl rfl
  · exact .inr rfl
  · exact absurd (Host.Outcome.next.inj e).symm (fun h => ne (h.trans (other .retire nofun)))
  · exact absurd (Host.Outcome.next.inj e).symm (fun h => ne (h.trans (other .flushPort nofun)))
  · exact absurd (Host.Outcome.next.inj e).symm (fun h => ne (h.trans (other .restart nofun)))

/-- Settles O59: each part of a step counts commits, and a tick's own write is of the entry that an ACTIVATE fills. -/
theorem versionsCountCommits : Obligations.VersionsCountCommits := by
  intro c s t k e ne
  have counted : s.CountsCommits t → ((cell t.versions k).version = (cell s.versions k).version + 1 ∧
      (∃ job, s.engine = .writing job) ∧ ∃ tr, s.mem.outstanding = some tr ∧ tr.requester = .commit ∧ t.mem.outstanding = none) :=
    fun h => (h.version k).resolve_left ne
  obtain q | ⟨u, q, rfl⟩ := Steps.of_exec e
  · cases q with
    | hardReset => exact .inr ⟨congrArg VersionEntry.version (cell_replicate ..), .inl rfl⟩
    | lineFalls x => exact absurd rfl ne
    | resetLineFalls p => exact absurd rfl ne
    | tick ticks line =>
      have before := s.expireDue_quiets
      obtain same | ⟨zero, r, n, l, filled⟩ := State.fillEntry_versions (s.expireDue.setTimebase (s.expireDue.timebase + 1)) k
      · have fill := State.fillEntry_writes (s.expireDue.setTimebase (s.expireDue.timebase + 1))
        obtain kept | ⟨more, writing, tr, out, q, ended⟩ := before.countsCommits.version k
        · exact absurd ((congrArg VersionEntry.version same).trans kept) ne
        · exact .inl ⟨(congrArg VersionEntry.version same).trans more, writing, tr, out, q, fill.outstanding.trans ended⟩
      · have executing := before.keepsActivate.activate r n l
        have ticked := State.ticks_of_activate ticks executing e (fun same => ne (by rw [same]))
        refine .inr ⟨congrArg VersionEntry.version zero, .inr ⟨ticked, r, n, executing, ?_⟩⟩
        rw [filled, ← before.keepsActivate.definition r]
        rfl
    | grant line => exact absurd (by rw [s.grant_writes.versions]) ne
    | takeCommit => exact absurd (by rw [s.takeCommit_writes.versions]) ne
    | requestCapture => exact absurd (by rw [s.requestCapture_writes.versions]) ne
    | complete => exact absurd (by rw [s.completeLong_writes.versions]) ne
    | link l => exact absurd (by rw [l.writes.versions]) ne
  · exact .inl (counted (q.countsCommits.trans u.settle_quiets.countsCommits))

end Sys2Proof.Machine

/-! SUPPORT. The staging pool under each operation: what stays of every buffer and of the pool's lists where an operation closes, opens
or frees none, and the pool's laws (03 R45, R52; 04 R68) through those that do. -/

namespace Sys2Proof.Machine

section
variable (s : State)

/-! ### Buffers after each operation -/

theorem State.closeBuffer_buffer (b c : BufId) : (s.closeBuffer b).buffer c = if c = b then { s.buffer b with
    state := .closed
    waitCount := (s.captures.filter fun c => c.ofRecord (s.buffer b).region (s.buffer b).record).length } else s.buffer c :=
  cell_put ..

theorem State.freeGathering_buffer (b c : BufId) :
    (s.freeGathering b).buffer c = if c = b then { s.buffer b with state := .free } else s.buffer c := cell_put ..

@[simp] theorem State.freeGathering_gathering (b : BufId) : (s.freeGathering b).pool.gathering =
    s.pool.gathering.set (s.buffer b).writer ((s.pool.gathering.get (s.buffer b).writer).erase b) := rfl

theorem State.openBuffer_buffer (p : Port) (x : Spot) (b c : BufId) :
    (s.openBuffer p x b).buffer c = if c = b then s.opened p x else s.buffer c := cell_put ..

@[simp] theorem State.openBuffer_gathering (p : Port) (x : Spot) (b : BufId) :
    (s.openBuffer p x b).pool.gathering = s.pool.gathering.set p (s.pool.gathering.get p ++ [b]) := rfl

@[simp] theorem State.openBuffer_closeOrder (p : Port) (x : Spot) (b : BufId) :
    (s.openBuffer p x b).pool.closeOrder = s.pool.closeOrder := rfl

@[simp] theorem State.openBuffer_holds (p : Port) (x : Spot) (b : BufId) : (s.openBuffer p x b).pool.holds = s.pool.holds := rfl

theorem State.freeCommitted_buffer (b c : BufId) :
    (s.freeCommitted b).buffer c = if c = b then { s.buffer b with state := .free, waitCount := 0 } else s.buffer c := cell_put ..

@[simp] theorem State.freeCommitted_gathering (b : BufId) : (s.freeCommitted b).pool.gathering = s.pool.gathering := rfl

@[simp] theorem State.freeCommitted_closeOrder (b : BufId) : (s.freeCommitted b).pool.closeOrder = s.pool.closeOrder.erase b := rfl

@[simp] theorem State.freeCommitted_holds (b : BufId) : (s.freeCommitted b).pool.holds = s.pool.holds := rfl

theorem State.discardUpdates_buffer (c : BufId) : s.discardUpdates.buffer c =
    if (s.buffer c).state = .gathering ∨ (s.buffer c).state = .closed then { s.buffer c with state := .free } else s.buffer c := by
  show cell (Vector.map _ s.pool.buffers) c = _
  unfold cell
  rw [Vector.getElem_map]
  rfl

/-- A FREE buffer found is FREE, and every buffer of a lower number is in use (03 R48). -/
theorem State.freeBuffer_eq_some {b : BufId} (h : s.freeBuffer = some b) : (s.buffer b).state = .free := by
  simpa using List.find?_some h

theorem mem_allBuffers (b : BufId) : b ∈ allBuffers := by revert b; decide

theorem State.freeBuffer_isSome : s.freeBuffer.isSome = true ↔ ∃ b, (s.buffer b).state = .free := by
  unfold State.freeBuffer
  rw [List.find?_isSome]
  exact ⟨fun ⟨b, _, h⟩ => ⟨b, by simpa using h⟩, fun ⟨b, h⟩ => ⟨b, mem_allBuffers b, by simpa using h⟩⟩

theorem State.gatheringOf_eq_some {r : RegionId} {k : Nat} {b : BufId} (h : s.gatheringOf r k = some b) :
    (s.buffer b).state = .gathering ∧ (s.buffer b).region = r ∧ (s.buffer b).record = k := by
  have found := List.find?_some h
  simp only [Buffer.ofRecord, Bool.and_eq_true, decide_eq_true_eq, bne_iff_ne, beq_iff_eq] at found
  exact ⟨found.1, found.2.1.2, found.2.2⟩

theorem State.canOpen_iff (p : Port) : s.canOpen p = true ↔
    (∃ b, (s.buffer b).state = .free) ∧ (s.pool.gathering.get p).length < 4 := by
  unfold State.canOpen
  rw [Bool.and_eq_true, s.freeBuffer_isSome, decide_eq_true_eq]

/-! ### Operations that close, open and free no buffer -/

/-- No buffer but for its wait count and its pre-torn mark is changed, nor is any of the pool's lists. -/
structure State.KeepsUpdates (s t : State) : Prop where
  buffer : ∀ b, ∃ w p, t.buffer b = { s.buffer b with waitCount := w, preTorn := p }
  gathering : t.pool.gathering = s.pool.gathering
  closeOrder : t.pool.closeOrder = s.pool.closeOrder
  holds : t.pool.holds = s.pool.holds

namespace State.KeepsUpdates

variable {s t u : State}

theorem of_pool (h : t.pool = s.pool) : s.KeepsUpdates t :=
  ⟨fun b => ⟨_, _, by rw [State.buffer, h]; rfl⟩, by rw [h], by rw [h], by rw [h]⟩

protected theorem refl (s : State) : s.KeepsUpdates s := .of_pool rfl

protected theorem trans (h : s.KeepsUpdates t) (k : t.KeepsUpdates u) : s.KeepsUpdates u where
  buffer b := by
    obtain ⟨w, p, e⟩ := h.buffer b
    obtain ⟨w', p', e'⟩ := k.buffer b
    exact ⟨w', p', by rw [e', e]⟩
  gathering := k.gathering.trans h.gathering
  closeOrder := k.closeOrder.trans h.closeOrder
  holds := k.holds.trans h.holds

theorem of_writes {fs : List Field} (h : s.Writes fs t) (n : Field.pool ∉ fs := by decide) : s.KeepsUpdates t := .of_pool (h.pool n)

theorem foldl {α : Type} {g : State → α → State} (hg : ∀ (s : State) (x : α), s.KeepsUpdates (g s x)) (l : List α) (s : State) :
    s.KeepsUpdates (l.foldl g s) := by
  induction l generalizing s with
  | nil => exact .refl s
  | cons x l ih => exact (hg s x).trans (ih _)

/-- Writing a buffer's wait count and mark. -/
theorem setBuffer (s : State) (b : BufId) (w : Nat) (p : Bool) :
    s.KeepsUpdates (s.setBuffer b { s.buffer b with waitCount := w, preTorn := p }) where
  buffer c := by
    rw [State.setBuffer_buffer]
    split
    · next e => exact ⟨w, p, by rw [e]⟩
    · exact ⟨_, _, rfl⟩
  gathering := rfl
  closeOrder := rfl
  holds := rfl

theorem state (h : s.KeepsUpdates t) (b : BufId) : (t.buffer b).state = (s.buffer b).state := by
  obtain ⟨w, p, e⟩ := h.buffer b; rw [e]

theorem region (h : s.KeepsUpdates t) (b : BufId) : (t.buffer b).region = (s.buffer b).region := by
  obtain ⟨w, p, e⟩ := h.buffer b; rw [e]

theorem record (h : s.KeepsUpdates t) (b : BufId) : (t.buffer b).record = (s.buffer b).record := by
  obtain ⟨w, p, e⟩ := h.buffer b; rw [e]

theorem writer (h : s.KeepsUpdates t) (b : BufId) : (t.buffer b).writer = (s.buffer b).writer := by
  obtain ⟨w, p, e⟩ := h.buffer b; rw [e]

theorem image (h : s.KeepsUpdates t) (b : BufId) : (t.buffer b).image = (s.buffer b).image := by
  obtain ⟨w, p, e⟩ := h.buffer b; rw [e]

theorem mask (h : s.KeepsUpdates t) (b : BufId) : (t.buffer b).mask = (s.buffer b).mask := by
  obtain ⟨w, p, e⟩ := h.buffer b; rw [e]

theorem openingTime (h : s.KeepsUpdates t) (b : BufId) : (t.buffer b).openingTime = (s.buffer b).openingTime := by
  obtain ⟨w, p, e⟩ := h.buffer b; rw [e]

end State.KeepsUpdates

theorem State.makePreTorn_keepsUpdates (r : RegionId) (k : Nat) (x : Option BufId) : s.KeepsUpdates (s.makePreTorn r k x) := by
  refine State.KeepsUpdates.foldl (fun s b => ?_) _ s
  dsimp only
  split
  · exact .setBuffer s b _ true
  · exact .refl s

theorem State.tearThrough_keepsUpdates (p : Port) (x : Spot) : s.KeepsUpdates (s.tearThrough p x) :=
  ((State.KeepsUpdates.of_writes (s.setVersions_writes _)).trans (State.makePreTorn_keepsUpdates ..)).trans
    (.of_writes (State.post_writes ..))

theorem State.settleRecord_keepsUpdates (b : BufId) (faulted : Bool) : s.KeepsUpdates (s.settleRecord b faulted) := by
  unfold State.settleRecord
  dsimp only
  split
  · exact ((State.KeepsUpdates.of_writes (s.setVersions_writes _)).trans (State.makePreTorn_keepsUpdates ..)).trans
      (.of_writes (State.post_writes ..))
  · exact .of_writes (s.setVersions_writes _)

theorem State.settledCommit_keepsUpdates (job : CommitJob) : s.KeepsUpdates (s.settledCommit job) :=
  (s.settleRecord_keepsUpdates ..).trans (.of_writes (State.evaluateWatches_writes ..))

theorem State.lowerWaits_keepsUpdates (l : List BufId) : s.KeepsUpdates (s.lowerWaits l) :=
  State.KeepsUpdates.foldl (fun s b => .setBuffer s b _ _) _ s

theorem State.endCapture_keepsUpdates (c : Capture) : s.KeepsUpdates (s.endCapture c) :=
  (State.KeepsUpdates.of_writes (s.setCaptures_writes _)).trans (State.lowerWaits_keepsUpdates ..)

theorem State.releaseView_keepsUpdates (p : Port) (v : ViewIx) : s.KeepsUpdates (s.releaseView p v) := by
  unfold State.releaseView
  dsimp only
  split
  · exact .of_writes (s.setViews_writes ..)
  · split
    · exact (State.KeepsUpdates.of_writes (s.setViews_writes ..)).trans (State.endCapture_keepsUpdates ..)
    · exact (State.KeepsUpdates.of_writes ((s.setViews_writes ..).seq (State.setCaptureRequest_writes ..))).trans
        (State.endCapture_keepsUpdates ..)
    · exact .of_writes ((s.setViews_writes ..).seq (State.setCaptures_writes ..))

theorem State.releaseAndGiveBack_keepsUpdates (pv : Port × ViewIx) : s.KeepsUpdates (s.releaseAndGiveBack pv) := by
  have released := s.releaseView_keepsUpdates pv.1 pv.2
  unfold State.releaseAndGiveBack
  dsimp only
  split
  · exact released
  · split
    · exact released.trans (.of_writes (State.giveBack_writes ..))
    · exact released

theorem State.releaseAll_keepsUpdates (l : List (Port × ViewIx)) : s.KeepsUpdates (s.releaseAll l) :=
  State.KeepsUpdates.foldl (fun s x => s.releaseAndGiveBack_keepsUpdates x) _ s

theorem State.answerFromView_keepsUpdates (p : Port) (v : ViewIx) (x : Spot) (n : Nat) :
    s.KeepsUpdates (s.answerFromView p v x n) := by
  have answered : s.KeepsUpdates ((s.finishPiece p n (statusOfMark (s.view p v).torn)
      (viewWords (s.definition x.region) (s.view p v) x.offset n)).setUseList p ((s.views.get p).useList.erase v ++ [v])) :=
    .of_writes ((s.finishPiece_writes ..).seq (State.setViews_writes ..))
  unfold State.answerFromView
  dsimp only
  split
  · exact answered.trans (State.releaseView_keepsUpdates ..)
  · exact answered

theorem State.serveFromView_keepsUpdates (p : Port) (v : ViewIx) (x : Spot) (n : Nat) :
    s.KeepsUpdates (s.serveFromView p v x n) := by
  unfold State.serveFromView
  split
  · exact s.answerFromView_keepsUpdates ..
  · exact .of_writes (s.awaitPiece_writes ..)

theorem State.viewPiece_keepsUpdates (p : Port) (x : Spot) (n : Nat) : s.KeepsUpdates (s.viewPiece p x n) := by
  unfold State.viewPiece
  split
  · exact s.serveFromView_keepsUpdates ..
  · split
    · exact .of_writes (s.awaitPiece_writes ..)
    · exact ((s.releaseView_keepsUpdates ..).trans (.of_writes (State.openView_writes ..))).trans
        (State.serveFromView_keepsUpdates ..)

theorem State.completeCapture_keepsUpdates (c : Capture) : s.KeepsUpdates (s.completeCapture c) := by
  have ended := s.endCapture_keepsUpdates c
  unfold State.completeCapture
  dsimp only
  split
  · exact ended
  · next v _ =>
    have filled := fun x => ended.trans (.of_writes (State.setView_writes _ c.port v x))
    split
    · exact filled _
    · split
      · exact filled _
      · split
        · exact (filled _).trans (State.answerFromView_keepsUpdates ..)
        · exact filled _

theorem State.faultCapture_keepsUpdates (c : Capture) : s.KeepsUpdates (s.faultCapture c) := by
  have ended := s.endCapture_keepsUpdates c
  unfold State.faultCapture
  dsimp only
  split
  · exact ended
  · next v _ =>
    have released := ended.trans (State.releaseView_keepsUpdates _ c.port v)
    refine State.KeepsUpdates.trans ?_ (.of_writes (State.post_writes ..))
    split
    · exact released
    · split
      · exact released.trans (.of_writes (State.finishPiece_writes ..))
      · exact released

theorem State.endRead_keepsUpdates : s.KeepsUpdates s.endRead := by
  unfold State.endRead
  split
  · exact .refl s
  · refine State.KeepsUpdates.trans ?_ (.of_writes (State.mapExecuting_writes ..))
    split
    · exact s.faultCapture_keepsUpdates _
    · exact s.completeCapture_keepsUpdates _

end

/-! ### The pool's laws (03 R45, R52; 04 R68) -/

namespace State.PoolLawful

variable {s t : State}

/-- The laws read the buffers' states and writers, the pool's lists and the engine's current buffer. -/
theorem congr (h : s.PoolLawful) (state : ∀ b, (t.buffer b).state = (s.buffer b).state)
    (writer : ∀ b, (t.buffer b).writer = (s.buffer b).writer) (gathering : t.pool.gathering = s.pool.gathering)
    (closeOrder : t.pool.closeOrder = s.pool.closeOrder) (engine : t.engine.current = s.engine.current) : t.PoolLawful where
  gathering_iff p b := by rw [gathering, state, writer]; exact h.gathering_iff p b
  gathering_nodup p := gathering ▸ h.gathering_nodup p
  gathering_le p := gathering ▸ h.gathering_le p
  close_iff b := by rw [closeOrder, state]; exact h.close_iff b
  close_nodup := closeOrder ▸ h.close_nodup
  engine_iff b := by rw [state, engine]; exact h.engine_iff b

theorem keeps (h : s.PoolLawful) (k : s.KeepsUpdates t) (engine : t.engine.current = s.engine.current) : t.PoolLawful :=
  h.congr k.state k.writer k.gathering k.closeOrder engine

theorem writes (h : s.PoolLawful) {fs : List Field} (k : s.Writes fs t) (p : Field.pool ∉ fs := by decide)
    (e : Field.engine ∉ fs := by decide) : t.PoolLawful := h.keeps (.of_writes k p) (by rw [k.engine e])

/-- A buffer on a gathering list is not on another port's. -/
theorem mem_gathering (h : s.PoolLawful) {b : BufId} (g : (s.buffer b).state = .gathering) :
    b ∈ s.pool.gathering.get (s.buffer b).writer := (h.gathering_iff _ b).2 ⟨g, rfl⟩

theorem closeBuffer (h : s.PoolLawful) {b : BufId} (g : (s.buffer b).state = .gathering) : (s.closeBuffer b).PoolLawful where
  gathering_iff p c := by
    have iff := h.gathering_iff p c
    have nodup := h.gathering_nodup p
    rw [State.closeBuffer_gathering, PerPort.get_set, s.closeBuffer_buffer b c]
    by_cases hc : c = b <;> by_cases hp : p = (s.buffer b).writer
    · subst hc hp; simp [nodup.not_mem_erase]
    · subst hc; rw [if_neg hp, iff]; simp [Ne.symm hp]
    · subst hp; rw [if_pos rfl, if_neg hc, nodup.mem_erase_iff, iff]; simp [hc]
    · rw [if_neg hp, if_neg hc, iff]
  gathering_nodup p := by
    rw [State.closeBuffer_gathering, PerPort.get_set]
    split
    · exact (h.gathering_nodup _).erase b
    · exact h.gathering_nodup p
  gathering_le p := by
    rw [State.closeBuffer_gathering, PerPort.get_set]
    split
    · exact (List.length_erase_le).trans (h.gathering_le _)
    · exact h.gathering_le p
  close_iff c := by
    rw [State.closeBuffer_closeOrder, List.mem_append, List.mem_singleton, s.closeBuffer_buffer b c, h.close_iff]
    by_cases hc : c = b
    · simp [hc]
    · simp [hc]
  close_nodup := by
    rw [State.closeBuffer_closeOrder, List.nodup_append]
    refine ⟨h.close_nodup, List.nodup_singleton b, fun c hc d hd e => ?_⟩
    rw [List.mem_singleton] at hd
    subst e hd
    rw [h.close_iff, g] at hc
    simp at hc
  engine_iff c := by
    rw [s.closeBuffer_buffer b c, show (s.closeBuffer b).engine = s.engine from rfl, ← h.engine_iff c]
    split
    · next e => rw [e, g]; simp
    · rfl

theorem freeGathering (h : s.PoolLawful) {b : BufId} (g : (s.buffer b).state = .gathering) : (s.freeGathering b).PoolLawful where
  gathering_iff p c := by
    have iff := h.gathering_iff p c
    have nodup := h.gathering_nodup p
    rw [State.freeGathering_gathering, PerPort.get_set, s.freeGathering_buffer b c]
    by_cases hc : c = b <;> by_cases hp : p = (s.buffer b).writer
    · subst hc hp; simp [nodup.not_mem_erase]
    · subst hc; rw [if_neg hp, iff]; simp [Ne.symm hp]
    · subst hp; rw [if_pos rfl, if_neg hc, nodup.mem_erase_iff, iff]; simp [hc]
    · rw [if_neg hp, if_neg hc, iff]
  gathering_nodup p := by
    rw [State.freeGathering_gathering, PerPort.get_set]
    split
    · exact (h.gathering_nodup _).erase b
    · exact h.gathering_nodup p
  gathering_le p := by
    rw [State.freeGathering_gathering, PerPort.get_set]
    split
    · exact (List.length_erase_le).trans (h.gathering_le _)
    · exact h.gathering_le p
  close_iff c := by
    rw [State.freeGathering_closeOrder, s.freeGathering_buffer b c, h.close_iff]
    split
    · next e => rw [e, g]; simp
    · rfl
  close_nodup := h.close_nodup
  engine_iff c := by
    rw [s.freeGathering_buffer b c, show (s.freeGathering b).engine = s.engine from rfl, ← h.engine_iff c]
    split
    · next e => rw [e, g]; simp
    · rfl

theorem openBuffer (h : s.PoolLawful) {b : BufId} (f : (s.buffer b).state = .free) {p : Port}
    (room : (s.pool.gathering.get p).length < 4) (x : Spot) : (s.openBuffer p x b).PoolLawful where
  gathering_iff q c := by
    have iff := h.gathering_iff q c
    rw [State.openBuffer_gathering, PerPort.get_set, s.openBuffer_buffer p x b c]
    by_cases hc : c = b <;> by_cases hq : q = p
    · subst hc hq; simp [State.opened]
    · subst hc; rw [if_neg hq, iff, f]; simp [State.opened, Ne.symm hq]
    · subst hq; rw [if_pos rfl, if_neg hc, List.mem_append, iff]; simp [hc]
    · rw [if_neg hq, if_neg hc, iff]
  gathering_nodup q := by
    rw [State.openBuffer_gathering, PerPort.get_set]
    split
    · refine List.nodup_append.2 ⟨h.gathering_nodup p, List.nodup_singleton b, fun c hc d hd e => ?_⟩
      rw [List.mem_singleton] at hd
      subst e hd
      rw [h.gathering_iff, f] at hc
      simp at hc
    · exact h.gathering_nodup q
  gathering_le q := by
    rw [State.openBuffer_gathering, PerPort.get_set]
    split
    · simpa using room
    · exact h.gathering_le q
  close_iff c := by
    rw [State.openBuffer_closeOrder, s.openBuffer_buffer p x b c, h.close_iff]
    split
    · next e => rw [e, f]; simp [State.opened]
    · rfl
  close_nodup := h.close_nodup
  engine_iff c := by
    rw [s.openBuffer_buffer p x b c, show (s.openBuffer p x b).engine = s.engine from rfl, ← h.engine_iff c]
    split
    · next e => rw [e, f]; simp [State.opened]
    · rfl

end State.PoolLawful

section
variable (s : State)

/-- What the engine takes is CLOSED with no wait left (04 R69, R70). -/
theorem State.firstEligible_eq_some {earlier l : List BufId} {b : BufId} (h : s.firstEligible earlier l = some b) :
    b ∈ l ∧ (s.buffer b).state = .closed ∧ (s.buffer b).waitCount = 0 := by
  induction l generalizing earlier with
  | nil => cases h
  | cons c l ih =>
    unfold State.firstEligible at h
    dsimp only at h
    split at h
    · next e =>
      cases h
      exact ⟨List.mem_cons_self, e.1, e.2.1⟩
    · exact ⟨List.mem_cons_of_mem _ (ih h).1, (ih h).2⟩

/-- Everything the engine's taking can do (04 R70). -/
theorem State.takeCommit_cases : s.takeCommit = s ∨ ∃ b job, s.engine = .idle ∧ s.eligible = some b ∧ job.buffer = b ∧
    job.answers = List.replicate job.words.length .unanswered ∧
    s.takeCommit = ((s.setBuffer b { s.buffer b with state := .committing }).setCommitRequest
      (some (.write (addressOf (s.definition (s.buffer b).region) (s.buffer b).record job.first) job.words))).setEngine
        (.requesting job) := by
  unfold State.takeCommit
  split
  · exact .inl rfl
  · exact .inl rfl
  · next idle =>
    split
    · exact .inl rfl
    · next b e => exact .inr ⟨b, _, idle, e, rfl, by simp [commitJob, run], rfl⟩

end

namespace State.PoolLawful

variable {s t : State}

theorem takeCommit (h : s.PoolLawful) : s.takeCommit.PoolLawful := by
  obtain e | ⟨b, job, idle, eligible, rfl, -, e⟩ := s.takeCommit_cases <;> rw [e]
  · exact h
  · obtain ⟨-, closed, -⟩ := s.firstEligible_eq_some eligible
    have none : ∀ c, (s.buffer c).state ≠ .committing := fun c hc => by
      rw [h.engine_iff, idle] at hc
      cases hc
    have buffer : ∀ c, (((s.setBuffer job.buffer { s.buffer job.buffer with state := .committing }).setCommitRequest (some
        (.write (addressOf (s.definition (s.buffer job.buffer).region) (s.buffer job.buffer).record job.first)
          job.words))).setEngine (.requesting job)).buffer c =
        if c = job.buffer then { s.buffer job.buffer with state := .committing } else s.buffer c :=
      fun c => s.setBuffer_buffer ..
    refine ⟨fun p c => ?_, h.gathering_nodup, h.gathering_le, fun c => ?_, h.close_nodup, fun c => ?_⟩
    · rw [buffer]
      refine (h.gathering_iff p c).trans ?_
      split
      · next e => subst e; simp [closed]
      · rfl
    · rw [buffer]
      refine (h.close_iff c).trans ?_
      split
      · next e => subst e; simp [closed]
      · rfl
    · rw [buffer]
      show _ ↔ some job.buffer = some c
      split
      · next e => simp [e]
      · next e => simp [none c, Ne.symm e]

/-- The engine's own buffer goes to FREE and the engine to IDLE together (04 R79). -/
theorem freeCurrent (h : s.PoolLawful) {b : BufId} (current : s.engine.current = some b)
    (state : ∀ c, (t.buffer c).state = if c = b then .free else (s.buffer c).state)
    (writer : ∀ c, (t.buffer c).writer = (s.buffer c).writer) (gathering : t.pool.gathering = s.pool.gathering)
    (closeOrder : t.pool.closeOrder = s.pool.closeOrder.erase b) (engine : t.engine = .idle) : t.PoolLawful := by
  have committing : (s.buffer b).state = .committing := (h.engine_iff b).2 current
  have only : ∀ c, (s.buffer c).state = .committing → c = b := fun c hc =>
    Option.some.inj (((h.engine_iff c).1 hc).symm.trans current)
  refine ⟨fun p c => ?_, fun p => gathering ▸ h.gathering_nodup p, fun p => gathering ▸ h.gathering_le p, fun c => ?_,
    closeOrder ▸ h.close_nodup.erase b, fun c => ?_⟩
  · rw [gathering, state, writer, h.gathering_iff]
    split
    · next e => rw [e, committing]; simp
    · rfl
  · rw [closeOrder, h.close_nodup.mem_erase_iff, h.close_iff, state]
    split
    · next e => simp [e]
    · next e => simp [e]
  · rw [engine, state]
    show _ ↔ none = some c
    split
    · simp
    · next e => simp only [reduceCtorEq, iff_false]; exact fun hc => e (only c hc)

theorem freedCommit (h : s.PoolLawful) {job : CommitJob} (writing : s.engine = .writing job) : (s.freedCommit job).PoolLawful := by
  have kept := s.settledCommit_keepsUpdates job
  have after : (s.freedCommit job).pool = ((s.settledCommit job).freeCommitted job.buffer).pool :=
    ((State.mapExecuting_writes ..).seq (State.setEngine_writes ..)).pool
  have idle : (s.freedCommit job).engine = .idle := rfl
  have buffer : ∀ c, (s.freedCommit job).buffer c = ((s.settledCommit job).freeCommitted job.buffer).buffer c :=
    fun c => by rw [State.buffer, State.buffer, after]
  generalize s.freedCommit job = t at after idle buffer
  generalize s.settledCommit job = u at kept after buffer
  refine h.freeCurrent (b := job.buffer) (by rw [writing]; rfl) (fun c => ?_) (fun c => ?_) ?_ ?_ idle
  · rw [buffer, State.freeCommitted_buffer]
    split
    · rfl
    · exact kept.state c
  · rw [buffer, State.freeCommitted_buffer]
    split
    · next e => rw [e]; exact kept.writer _
    · exact kept.writer c
  · rw [after, State.freeCommitted_gathering, kept.gathering]
  · rw [after, State.freeCommitted_closeOrder, kept.closeOrder]

theorem discardUpdates (h : s.PoolLawful) : s.discardUpdates.PoolLawful := by
  have empty : ∀ p, s.discardUpdates.pool.gathering.get p = [] := fun p => by cases p <;> rfl
  have order : s.discardUpdates.pool.closeOrder = s.pool.closeOrder.filter fun b => (s.buffer b).state = .committing := rfl
  refine ⟨fun p c => ?_, fun p => by simp [empty], fun p => by simp [empty], fun c => ?_, order ▸ h.close_nodup.filter _, fun c => ?_⟩
  · rw [empty, State.discardUpdates_buffer]
    cases e : (s.buffer c).state <;> simp [e]
  · rw [order, List.mem_filter, h.close_iff, State.discardUpdates_buffer]
    cases e : (s.buffer c).state <;> simp [e]
  · rw [show s.discardUpdates.engine = s.engine from rfl, ← h.engine_iff, State.discardUpdates_buffer]
    cases e : (s.buffer c).state <;> simp [e]

end State.PoolLawful

end Sys2Proof.Machine

/-! SUPPORT. What the parts of a step do to the staging pool, the captures, the engine and the ports, taken apart into acts with what
holds when each is done; a law that each act keeps is kept by every part. -/

namespace Sys2Proof.Machine

/-- The port is the writer of the ACTIVE region of this spot (03 R43). -/
structure State.WriterOf (s : State) (p : Port) (x : Spot) : Prop where
  active : (s.region x.region).state = .active
  writer : (s.definition x.region).writer = p

/-- The piece waits for the view store (05 R88, R98). -/
def Wait.OfView (w : Wait) : Prop := w = .forView ∨ ∃ v, w = .onView v

/-- The piece waits for the memory port (02 R29, R33). -/
def Wait.OfMemory (w : Wait) : Prop := w = .memory ∨ ∃ snap, w = .readOwn snap

/-- No held write of the port waits (03, 3.5.1). -/
def State.Unheld (s : State) (p : Port) : Prop := ∀ h ∈ s.pool.holds, h.port ≠ p

/-- The port's piece in service, if it has one, is not a held write, and under the condition `G` it waits for the view store. -/
def State.Servable (G : Prop) (s : State) (p : Port) : Prop :=
  ∀ x, (s.port p).service.piece = some x → x.wait ≠ .held ∧ (G → x.wait.OfView)

/-- A view released, its capture not yet dealt with (05 R103). -/
def State.freeView (s : State) (p : Port) (v : ViewIx) : State :=
  s.setViews p { views := put (s.views.get p).views v { s.view p v with state := .free }, useList := (s.views.get p).useList.erase v }

theorem State.freeView_writes (s : State) (p : Port) (v : ViewIx) : s.Writes [.views] (s.freeView p v) := s.setViews_writes ..

/-- What other parts read of a capture: its hold set, the view it fills, and its record. -/
def Capture.key (c : Capture) : List BufId × Option ViewIx × Port × RegionId × Nat := (c.holdSet, c.view, c.port, c.region, c.record)

/-- One act on the staging pool, the captures, the engine, the views and the ports. What rests on the law of the pool is said under the condition
`E`, and what rests on the law of the ports under `F`; what would part the owners from the memory port is left out under the condition `G`. -/
inductive Act (E F G : Prop) : State → State → Prop
  | other {s t : State} : s.Writes [.versions, .events, .link, .choices] t → Act E F G s t
  | mark (s : State) (b : BufId) : Act E F G s (s.setBuffer b { s.buffer b with preTorn := true })
  | stage (s : State) (b : BufId) (k : Nat) (ws : List WriteWord) : (s.buffer b).state = .gathering →
      Act E F G s (s.setBuffer b (stageWords (s.buffer b) k ws))
  | close (s : State) (b : BufId) : (E → (s.buffer b).state = .gathering) → Act E F G s (s.closeBuffer b)
  | free (s : State) (b : BufId) : (E → (s.buffer b).state = .gathering) → Act E F G s (s.freeGathering b)
  | opening (s : State) (p : Port) (x : Spot) (b : BufId) : s.freeBuffer = some b → (s.pool.gathering.get p).length < 4 →
      s.gatheringOf x.region x.record = none → s.WriterOf p x → (F → s.Unheld p) → Act E F G s (s.openBuffer p x b)
  | openHeld (s : State) (h : HeldWrite) (b : BufId) : s.freeBuffer = some b → (s.pool.gathering.get h.port).length < 4 →
      (F → h ∈ s.pool.holds) → Act E F G s ((s.setPool { s.pool with holds := s.pool.holds.erase h }).openBuffer h.port h.spot b)
  | hold (s : State) (p : Port) (x : Spot) (ws : List WriteWord) (r : Request) (rest : List Request) : s.WriterOf p x →
      s.gatheringOf x.region x.record = none → s.Servable G p → (F → s.Unheld p) → (s.port p).queue = r :: rest →
      1 ≤ ws.length → (s.port p).service.next + ws.length ≤ r.beats → Act E F G s (s.holdPiece p x ws)
  | dropHold (s : State) (h : HeldWrite) : Act E F G s (s.setPool { s.pool with holds := s.pool.holds.erase h })
  | dropHolds (s : State) (p : Port) : Act E F G s (s.dropHold p)
  | discard (s : State) : Act E F G s s.discardUpdates
  | take (s : State) : Act E F G s s.takeCommit
  | commit (s : State) (job : CommitJob) : ¬G → s.engine = .writing job → Act E F G s ((s.freeCommitted job.buffer).setEngine .idle)
  | engine (s : State) (e : CommitEngine) : ¬G → e.current = s.engine.current → Act E F G s (s.setEngine e)
  | freeView (s : State) (p : Port) (v : ViewIx) : s.captures.find? (fun c => c.fills p v) = none → Act E F G s (s.freeView p v)
  | withdraw (s : State) (p : Port) (v : ViewIx) (c : Capture) : s.captures.find? (fun c => c.fills p v) = some c →
      c.state = .queued → Act E F G s ((s.freeView p v).endCapture c)
  | cancel (s : State) (p : Port) (v : ViewIx) (c : Capture) : s.captures.find? (fun c => c.fills p v) = some c →
      c.state = .requesting → Act E F G s (((s.freeView p v).setCaptureRequest none).endCapture c)
  | unview (s : State) (p : Port) (v : ViewIx) : Act E F G s
      ((s.freeView p v).setCaptures (s.captures.map fun x => if x.fills p v then { x with view := none } else x))
  | openView (s : State) (p : Port) (v : ViewIx) (r : RegionId) (k : Nat) : (s.view p v).state = .free → s.viewOf p r k = none →
      (s.region r).state = .active → Act E F G s (s.openView p v r k)
  | touch (s : State) (p : Port) (v : ViewIx) : (s.view p v).state ≠ .free →
      Act E F G s (s.setUseList p ((s.views.get p).useList.erase v ++ [v]))
  | endCapture (s : State) (c : Capture) : ¬G → c ∈ s.captures → c.view = none → Act E F G s (s.endCapture c)
  | fill (s : State) (c : Capture) (v : ViewIx) (x : View) : ¬G → c ∈ s.captures → c.view = some v → x.state = .held →
      x.region = (s.view c.port v).region → x.record = (s.view c.port v).record → x.completeTime = s.timebase →
      Act E F G s ((s.endCapture c).setView c.port v x)
  | fail (s : State) (c : Capture) (v : ViewIx) : ¬G → c ∈ s.captures → c.view = some v →
      Act E F G s ((s.endCapture c).releaseView c.port v)
  | relabel (s : State) (l : List Capture) : ¬G → l.map Capture.key = s.captures.map Capture.key →
      Act E F G s (s.setCaptures l)
  | serve (s : State) (p : Port) (v : Service) : s.Servable G p → (F → (s.port p).queue ≠ []) →
      (∀ x, v.piece = some x → x.wait.OfView) → Act E F G s (s.setService p v)
  | request (s : State) (p : Port) (q : MemRequest) (n : Nat) (x : Option Spot) (w : Wait) : s.Servable G p →
      (F → (s.port p).queue ≠ []) → w.OfMemory → Act E F G s ((s.setPlainRequest p (some q)).awaitPiece p n x w)
  | respond (s : State) (p : Port) (r : Request) (rest : List Request) : s.Servable G p → (s.port p).queue = r :: rest →
      Act E F G s (s.respond p r rest)
  | endHeld (s : State) (p : Port) (n : Nat) (st : Status) : (F → s.Unheld p) →
      (F → ∃ x, (s.port p).service.piece = some x ∧ x.wait = .held) → Act E F G s (s.finishPiece p n st [])
  | memory {s t : State} : ¬G → s.Writes [.plain, .commit, .capture, .outstanding, .arbiter] t → Act E F G s t
  | loose {s t : State} : ¬F → ¬G → s.Writes [.ports] t → Act E F G s t

/-- Any number of acts, one after another. -/
abbrev Acts (E F G : Prop) : State → State → Prop := Relation.ReflTransGen (Act E F G)

/-- What an act keeps, any number of them keep. -/
theorem Acts.keeps {E F G : Prop} {P : State → Prop} (act : ∀ s t, Act E F G s t → P s → P t) {s t : State} (q : Acts E F G s t)
    (h : P s) : P t := by
  induction q with
  | refl => exact h
  | tail _ k ih => exact act _ _ k ih

/-- The fields that acts write: all but the waiting commands, the hard reset line, the timebase and the region table. -/
def acted : List Field :=
  [.versions, .ports, .pool, .engine, .views, .captures, .plain, .commit, .capture, .outstanding, .arbiter, .events, .link, .choices]

theorem State.setService_writes (s : State) (p : Port) (v : Service) : s.Writes [.ports] (s.setService p v) := s.setPort_writes ..

theorem Act.writes {E F G : Prop} {s t : State} (a : Act E F G s t) : s.Writes acted t := by
  cases a with
  | other w => exact w.mono
  | mark b => exact (s.setBuffer_writes ..).mono
  | stage b k ws _ => exact (s.setBuffer_writes ..).mono
  | close b _ => exact (s.closeBuffer_writes b).mono
  | free b _ => exact (s.freeGathering_writes b).mono
  | opening p x b _ _ _ _ _ => exact (s.openBuffer_writes ..).mono
  | openHeld h b _ _ _ => exact ((s.setPool_writes _).seq (State.openBuffer_writes ..)).mono
  | hold p x ws r rest _ _ _ _ _ _ _ => exact (s.holdPiece_writes ..).mono
  | dropHold h => exact (s.setPool_writes _).mono
  | dropHolds p => exact (s.dropHold_writes p).mono
  | discard => exact s.discardUpdates_writes.mono
  | take => exact s.takeCommit_writes.mono
  | commit job _ _ => exact ((s.freeCommitted_writes _).seq (State.setEngine_writes ..)).mono
  | engine e _ _ => exact (s.setEngine_writes _).mono
  | freeView p v _ => exact (s.setViews_writes ..).mono
  | withdraw p v c _ _ => exact ((s.setViews_writes ..).seq (State.endCapture_writes ..)).mono
  | cancel p v c _ _ => exact (((s.setViews_writes ..).seq (State.setCaptureRequest_writes ..)).seq (State.endCapture_writes ..)).mono
  | unview p v => exact ((s.setViews_writes ..).seq (State.setCaptures_writes ..)).mono
  | openView p v r k _ _ _ => exact (s.openView_writes ..).mono
  | touch p v _ => exact (s.setViews_writes ..).mono
  | endCapture c _ _ _ => exact (s.endCapture_writes c).mono
  | fill c v x _ _ _ _ _ _ _ => exact ((s.endCapture_writes c).seq (State.setView_writes ..)).mono
  | fail c v _ _ _ => exact ((s.endCapture_writes c).seq (State.releaseView_writes ..)).mono
  | relabel l _ _ => exact (s.setCaptures_writes _).mono
  | serve p v _ _ _ => exact (s.setService_writes p v).mono
  | request p q n x w _ _ _ => exact ((s.setPlainRequest_writes ..).seq (State.awaitPiece_writes ..)).mono
  | respond p r rest _ _ => exact (s.respond_writes ..).mono
  | endHeld p n st _ _ => exact (s.finishPiece_writes ..).mono
  | memory _ w => exact w.mono
  | loose _ _ w => exact w.mono

/-! ### The pool's laws through every act -/

theorem State.PoolLawful.setBuffer {s : State} (h : s.PoolLawful) (b : BufId) (x : Buffer) (state : x.state = (s.buffer b).state)
    (writer : x.writer = (s.buffer b).writer) : (s.setBuffer b x).PoolLawful := by
  refine h.congr (fun c => ?_) (fun c => ?_) rfl rfl rfl <;> rw [State.setBuffer_buffer] <;> split
  · next e => rw [state, e]
  · rfl
  · next e => rw [writer, e]
  · rfl

theorem State.PoolLawful.act {E F G : Prop} (e : E) {s t : State} (h : s.PoolLawful) (a : Act E F G s t) : t.PoolLawful := by
  have holds : ∀ l, (s.setPool { s.pool with holds := l }).PoolLawful := fun l => h.congr (fun _ => rfl) (fun _ => rfl) rfl rfl rfl
  cases a with
  | other w => exact h.writes w
  | mark b => exact h.setBuffer b _ rfl rfl
  | stage b k ws _ =>
    obtain ⟨state, -, -, writer, -⟩ := stageWords_fields (s.buffer b) k ws
    exact h.setBuffer b _ state writer
  | close b g => exact h.closeBuffer (g e)
  | free b g => exact h.freeGathering (g e)
  | opening p x b f room _ _ _ => exact h.openBuffer (s.freeBuffer_eq_some f) room x
  | openHeld y b f room _ => exact (holds (s.pool.holds.erase y)).openBuffer (s.freeBuffer_eq_some f) room y.spot
  | hold p x ws r rest _ _ _ _ _ _ _ => exact (holds _).writes (State.awaitPiece_writes ..)
  | dropHold y => exact holds _
  | dropHolds p => exact holds _
  | discard => exact h.discardUpdates
  | take => exact h.takeCommit
  | commit job _ w =>
    refine h.freeCurrent (b := job.buffer) (by rw [w]; rfl) (fun c => ?_) (fun c => ?_) rfl rfl rfl
    · exact (congrArg Buffer.state (s.freeCommitted_buffer ..)).trans (apply_ite Buffer.state ..)
    · refine (congrArg Buffer.writer (s.freeCommitted_buffer ..)).trans ?_
      split
      · next e => rw [e]
      · rfl
  | engine e _ same => exact h.congr (fun _ => rfl) (fun _ => rfl) rfl rfl same
  | freeView p v _ => exact h.writes (s.setViews_writes ..)
  | withdraw p v c _ _ => exact (h.writes (s.freeView_writes p v)).keeps (State.endCapture_keepsUpdates ..) (by rw [(State.endCapture_writes ..).engine])
  | cancel p v c _ _ =>
    exact (h.writes ((s.freeView_writes p v).seq (State.setCaptureRequest_writes ..))).keeps (State.endCapture_keepsUpdates ..)
      (by rw [(State.endCapture_writes ..).engine])
  | unview p v => exact h.writes ((s.setViews_writes ..).seq (State.setCaptures_writes ..))
  | openView p v r k _ _ _ => exact h.writes (s.openView_writes ..)
  | touch p v _ => exact h.writes (s.setViews_writes ..)
  | endCapture c _ _ _ => exact h.keeps (s.endCapture_keepsUpdates c) (by rw [(s.endCapture_writes c).engine])
  | fill c v x _ _ _ _ _ _ _ =>
    exact (h.keeps (s.endCapture_keepsUpdates c) (by rw [(s.endCapture_writes c).engine])).writes (State.setView_writes ..)
  | fail c v _ _ _ =>
    exact h.keeps ((s.endCapture_keepsUpdates c).trans (State.releaseView_keepsUpdates ..))
      (by rw [((s.endCapture_writes c).seq (State.releaseView_writes ..)).engine])
  | relabel l _ _ => exact h.writes (s.setCaptures_writes _)
  | serve p v _ _ _ => exact h.writes (s.setService_writes p v)
  | request p q n x w _ _ _ => exact h.writes ((s.setPlainRequest_writes ..).seq (State.awaitPiece_writes ..))
  | respond p r rest _ _ => exact h.writes (s.respond_writes ..)
  | endHeld p n st _ _ => exact h.writes (s.finishPiece_writes ..)
  | memory _ w => exact h.writes w
  | loose _ _ w => exact h.writes w

/-! ### The ports' law through every act (02 R25; 03, 3.5.1) -/

section
variable {s t : State}

theorem State.setService_port (s : State) (p q : Port) (v : Service) :
    (s.setService p v).port q = if q = p then { s.port p with service := v } else s.port q := s.setPort_port p q _

theorem State.port_of_ports (h : t.ports = s.ports) (p : Port) : t.port p = s.port p := by rw [State.port, h]; rfl

namespace State.PortsLawful

/-- A port whose piece is not a held write has none. -/
theorem unheld (h : s.PortsLawful) {G : Prop} {p : Port} (servable : s.Servable G p) : s.Unheld p := by
  rintro g m rfl
  obtain ⟨r, rest, -, piece, -⟩ := h.piece g m
  exact (servable _ piece).1 rfl

/-- A port with a piece in service has a request. -/
theorem busy (h : s.PortsLawful) {p : Port} {x : Piece} (piece : (s.port p).service.piece = some x) : (s.port p).queue ≠ [] := fun e => by
  rw [h.idle p e] at piece
  cases piece

/-- Fewer held writes, and the ports as they were. -/
theorem fewer (h : s.PortsLawful) (ports : t.ports = s.ports) (holds : t.pool.holds.Sublist s.pool.holds) : t.PortsLawful := by
  have port := State.port_of_ports ports
  refine ⟨fun p => port p ▸ h.fit p, fun p => port p ▸ h.idle p, h.ports.sublist (holds.map _), fun g m => ?_⟩
  rw [port]
  exact h.piece g (holds.subset m)

theorem congr (h : s.PortsLawful) (ports : t.ports = s.ports) (holds : t.pool.holds = s.pool.holds) : t.PortsLawful :=
  h.fewer ports (holds ▸ List.Sublist.refl _)

theorem writes (h : s.PortsLawful) {fs : List Field} (w : s.Writes fs t) (p : Field.ports ∉ fs := by decide)
    (l : Field.pool ∉ fs := by decide) : t.PortsLawful := h.congr (w.ports p) (by rw [w.pool l])

/-- The port of no held write goes on with its request in service. -/
theorem setService (h : s.PortsLawful) {p : Port} (unheld : s.Unheld p) (busy : (s.port p).queue ≠ []) (v : Service) :
    (s.setService p v).PortsLawful := by
  refine ⟨fun q => ?_, fun q => ?_, h.ports, fun g m => ?_⟩
  · rw [State.setService_port]
    split
    · next e => exact e ▸ h.fit p
    · exact h.fit q
  · rw [State.setService_port]
    split
    · exact fun e => absurd e busy
    · exact h.idle q
  · rw [State.setService_port, if_neg (unheld g m)]
    exact h.piece g m

/-- A piece becomes the port's held write (03 R55). -/
theorem holdPiece (h : s.PortsLawful) {p : Port} (unheld : s.Unheld p) {r : Request} {rest : List Request} (x : Spot)
    {ws : List WriteWord} (queue : (s.port p).queue = r :: rest) (words : 1 ≤ ws.length)
    (within : (s.port p).service.next + ws.length ≤ r.beats) : (s.holdPiece p x ws).PortsLawful := by
  have port : ∀ q, (s.holdPiece p x ws).port q = if q = p then
      { s.port p with service := { (s.port p).service with piece := some ⟨ws.length, some x, .held⟩ } } else s.port q :=
    fun q => (s.setPool { s.pool with holds := s.pool.holds ++ [⟨p, x, ws, s.timebase⟩] }).setService_port p q _
  have holds : (s.holdPiece p x ws).pool.holds = s.pool.holds ++ [⟨p, x, ws, s.timebase⟩] := rfl
  refine ⟨fun q => ?_, fun q => ?_, ?_, fun g m => ?_⟩
  · rw [port]
    split
    · next e => exact e ▸ h.fit p
    · exact h.fit q
  · rw [port]
    split
    · exact fun e => nomatch queue.symm.trans e
    · exact h.idle q
  · rw [holds, List.map_append, List.nodup_append]
    refine ⟨h.ports, List.nodup_singleton _, fun a ha b hb e => ?_⟩
    obtain ⟨g, m, rfl⟩ := List.mem_map.1 ha
    exact unheld g m (e.trans (List.mem_singleton.1 hb))
  · rw [holds] at m
    rw [port]
    obtain m | m := List.mem_append.1 m
    · rw [if_neg (unheld g m)]
      exact h.piece g m
    · rw [List.mem_singleton.1 m, if_pos rfl]
      exact ⟨r, rest, queue, rfl, words, within⟩

/-- The next request of a port without a held write enters service (02 R26). -/
theorem respond (h : s.PortsLawful) {p : Port} (unheld : s.Unheld p) {r : Request} {rest : List Request}
    (queue : (s.port p).queue = r :: rest) : (s.respond p r rest).PortsLawful := by
  have port : ∀ q, (s.respond p r rest).port q = if q = p then { s.port p with
      queue := rest, service := .fresh, responses := (s.port p).responses ++ [responseOf r (s.port p).service] } else s.port q :=
    fun q => s.setPort_port p q _
  refine ⟨fun q => ?_, fun q => ?_, h.ports, fun g m => ?_⟩
  · rw [port]
    split
    · have fit := h.fit p
      rw [queue, List.length_cons] at fit
      exact Nat.le_of_succ_le fit
    · exact h.fit q
  · rw [port]
    split
    · exact fun _ => rfl
    · exact h.idle q
  · rw [port, if_neg (unheld g m)]
    exact h.piece g m

theorem act {E F G : Prop} (f : F) (h : s.PortsLawful) (a : Act E F G s t) : t.PortsLawful := by
  cases a with
  | other w => exact h.writes w
  | mark b | stage b k ws _ | close b _ | free b _ | opening p x b _ _ _ _ _ | discard | commit job _ _ | engine e _ _
  | freeView p v _ | unview p v | touch p v _ | relabel l _ _ => exact h.congr rfl rfl
  | openHeld y b _ _ _ => exact h.fewer rfl List.erase_sublist
  | hold p x ws r rest _ _ _ unheld queue words within => exact h.holdPiece (unheld f) x queue words within
  | dropHold y => exact h.fewer rfl List.erase_sublist
  | dropHolds p => exact h.fewer rfl List.filter_sublist
  | take =>
    refine h.congr s.takeCommit_writes.ports ?_
    obtain e | ⟨b, job, _, _, _, _, e⟩ := s.takeCommit_cases
    · rw [e]
    · rw [e]; rfl
  | withdraw p v c _ _ =>
    exact (h.writes (s.setViews_writes ..)).congr (State.endCapture_writes ..).ports (State.endCapture_keepsUpdates ..).holds
  | cancel p v c _ _ =>
    exact (h.writes ((s.setViews_writes ..).seq (State.setCaptureRequest_writes ..))).congr (State.endCapture_writes ..).ports
      (State.endCapture_keepsUpdates ..).holds
  | openView p v r k _ _ _ => exact h.writes (s.openView_writes ..)
  | endCapture c _ _ _ => exact h.congr (s.endCapture_writes c).ports (s.endCapture_keepsUpdates c).holds
  | fill c v x _ _ _ _ _ _ _ =>
    exact (h.congr (s.endCapture_writes c).ports (s.endCapture_keepsUpdates c).holds).writes (State.setView_writes ..)
  | fail c v _ _ _ =>
    exact h.congr ((s.endCapture_writes c).seq (State.releaseView_writes ..)).ports
      ((s.endCapture_keepsUpdates c).trans (State.releaseView_keepsUpdates ..)).holds
  | serve p v servable busy _ => exact h.setService (h.unheld servable) (busy f) v
  | request p q n x w servable busy _ =>
    exact (h.writes (s.setPlainRequest_writes p _)).setService (h.unheld servable) (busy f) _
  | respond p r rest servable queue => exact h.respond (h.unheld servable) queue
  | endHeld p n st unheld held =>
    obtain ⟨x, piece, -⟩ := held f
    exact h.setService (unheld f) (h.busy piece) _
  | memory _ w => exact h.writes w
  | loose n _ _ => exact absurd f n

end State.PortsLawful

end

/-- What the acts of a part of a step rest on: the pool's laws, and under its condition the ports' law. -/
structure Ready (E F : Prop) (s : State) : Prop where
  pool : E → s.PoolLawful
  ports : F → s.PortsLawful

theorem Ready.congr {E F : Prop} {s t : State} (h : Ready E F s) {fs : List Field} (w : s.Writes fs t) (p : Field.pool ∉ fs := by decide)
    (e : Field.engine ∉ fs := by decide) (l : Field.ports ∉ fs := by decide) : Ready E F t :=
  ⟨fun i => (h.pool i).writes w p e, fun f => (h.ports f).writes w l p⟩

namespace Acts

variable {E F G : Prop} {s t u : State}

theorem ready (q : Acts E F G s t) (h : Ready E F s) : Ready E F t :=
  q.keeps (P := Ready E F) (fun _ _ a h => ⟨fun e => (h.pool e).act e a, fun f => (h.ports f).act f a⟩) h

theorem writes (q : Acts E F G s t) : s.Writes acted t :=
  q.keeps (P := s.Writes _) (fun _ _ a h => h.trans a.writes) (.refl _ s)

theorem other {fs : List Field} (h : s.Writes fs t) (le : ∀ f ∈ fs, f ∈ [.versions, .events, .link, .choices] := by decide) :
    Acts E F G s t := .single (.other (h.mono le))

protected theorem trans (h : Acts E F G s t) (k : Acts E F G t u) : Acts E F G s u := Relation.ReflTransGen.trans h k

/-- Acts, then acts that rest on where the first ones lead. -/
theorem bind (h : Ready E F s) (q : Acts E F G s t) (k : Ready E F t → Acts E F G t u) : Acts E F G s u := q.trans (k (q.ready h))

theorem foldl {α : Type} {g : State → α → State} (act : ∀ (s : State) (x : α), Acts E F G s (g s x)) (l : List α) (s : State) :
    Acts E F G s (l.foldl g s) := by
  induction l generalizing s with
  | nil => exact .refl
  | cons x l ih => exact (act s x).trans (ih _)

end Acts

/-! ### The update controller's operations as acts (03) -/

section
variable {E F G : Prop} {s t : State}

theorem State.Servable.writes {p : Port} {fs : List Field} (h : s.Servable G p) (w : s.Writes fs t)
    (n : Field.ports ∉ fs := by decide) : t.Servable G p := by
  rw [State.Servable, State.port_of_ports (w.ports n)]
  exact h

theorem State.finishPiece_acts {p : Port} (servable : s.Servable G p) (busy : F → (s.port p).queue ≠ []) (n : Nat) (st : Status)
    (ws : List Word) : Acts E F G s (s.finishPiece p n st ws) := .single (.serve s p _ servable busy nofun)

theorem State.awaitPiece_acts {p : Port} (servable : s.Servable G p) (busy : F → (s.port p).queue ≠ []) (n : Nat) (x : Option Spot)
    {w : Wait} (view : w.OfView) : Acts E F G s (s.awaitPiece p n x w) :=
  .single (.serve s p _ servable busy fun _ e => by cases e; exact view)

variable (s) in
theorem State.makePreTorn_acts (r : RegionId) (k : Nat) (x : Option BufId) : Acts E F G s (s.makePreTorn r k x) := by
  refine Acts.foldl (fun s b => ?_) _ s
  dsimp only
  split
  · exact .single (.mark s b)
  · exact .refl

variable (s) in
theorem State.tearThrough_acts (p : Port) (x : Spot) : Acts E F G s (s.tearThrough p x) :=
  ((Acts.other (s.setVersions_writes _)).trans (State.makePreTorn_acts ..)).trans (Acts.other (State.post_writes ..))

theorem State.stageIn_acts {b : BufId} (g : (s.buffer b).state = .gathering) (x : Spot) (ws : List WriteWord) :
    Acts E F G s (s.stageIn b x ws) := by
  have staged : Act E F G s (s.setBuffer b (stageWords (s.buffer b) x.offset ws)) := .stage s b _ _ g
  unfold State.stageIn
  dsimp only
  split
  · refine .head staged (.single (.close _ b fun _ => ?_))
    rw [State.setBuffer_buffer, if_pos rfl]
    exact (stageWords_fields (s.buffer b) x.offset ws).1.trans g
  · exact .single staged

/-- Staging a piece writes the pool and the captures, and leaves the hold list. -/
theorem State.stageIn_holds (s : State) (b : BufId) (x : Spot) (ws : List WriteWord) :
    (s.stageIn b x ws).pool.holds = s.pool.holds := by
  unfold State.stageIn
  dsimp only
  split <;> rfl

theorem State.openUpdate_holds (s : State) (p : Port) (x : Spot) (ws : List WriteWord) :
    (s.openUpdate p x ws).pool.holds = s.pool.holds := by
  unfold State.openUpdate
  split
  · rfl
  · exact State.stageIn_holds ..

theorem State.openBuffer_gatherings (p : Port) (x : Spot) (b : BufId) : ((s.openBuffer p x b).buffer b).state = .gathering := by
  rw [State.openBuffer_buffer, if_pos rfl]
  rfl

theorem State.openUpdate_acts {p : Port} {x : Spot} (can : s.canOpen p = true) (one : s.gatheringOf x.region x.record = none)
    (writer : s.WriterOf p x) (unheld : F → s.Unheld p) (ws : List WriteWord) : Acts E F G s (s.openUpdate p x ws) := by
  unfold State.openUpdate
  split
  · exact .refl
  · next b f =>
    exact .head (.opening s p x b f ((s.canOpen_iff p).1 can).2 one writer unheld) (State.stageIn_acts (State.openBuffer_gatherings ..) ..)

/-- With one held write of a port off the list, the port has none. -/
theorem State.PortsLawful.unheld_erase (h : s.PortsLawful) {y : HeldWrite} (mem : y ∈ s.pool.holds) :
    ∀ g ∈ s.pool.holds.erase y, g.port ≠ y.port := fun g m e => by
  have nodup : s.pool.holds.Nodup := .of_map _ h.ports
  rw [nodup.mem_erase_iff] at m
  exact m.1 (List.inj_on_of_nodup_map h.ports m.2 mem e)

theorem State.examineHold_acts (h : Ready E F s) {y : HeldWrite} (held : F → y ∈ s.pool.holds) : Acts E F G s (s.examineHold y) := by
  unfold State.examineHold
  split
  · next can =>
    have opened : Acts E F G s ((s.setPool { s.pool with holds := s.pool.holds.erase y }).openUpdate y.port y.spot y.words) := by
      unfold State.openUpdate
      split
      · exact .single (.dropHold s y)
      · next b f =>
        exact .head (.openHeld s y b f ((s.canOpen_iff _).1 can).2 held) (State.stageIn_acts (State.openBuffer_gatherings ..) ..)
    refine opened.tail (.endHeld _ _ _ _ (fun f => ?_) fun f => ?_)
    · rw [State.Unheld, State.openUpdate_holds]
      exact (h.ports f).unheld_erase (held f)
    · obtain ⟨r, rest, -, piece, -⟩ := (h.ports f).piece y (held f)
      have ports := ((s.setPool_writes { s.pool with holds := s.pool.holds.erase y }).seq
        (State.openUpdate_writes _ y.port y.spot y.words)).ports
      rw [State.port_of_ports ports]
      exact ⟨_, piece, rfl⟩
  · exact .refl

/-- The examination of one held write leaves every other on the list. -/
theorem State.examineHold_holds (s : State) (h : HeldWrite) : (s.examineHold h).pool.holds = s.pool.holds ∨
    (s.examineHold h).pool.holds = s.pool.holds.erase h := by
  unfold State.examineHold
  split
  · exact .inr (State.openUpdate_holds ..)
  · exact .inl rfl

/-- Held writes are dealt with in list order, each of them while it stands on the list. -/
theorem State.eachHeld_acts {g : State → HeldWrite → State}
    (one : ∀ (s : State) (y : HeldWrite), Ready E F s → (F → y ∈ s.pool.holds) → Acts E F G s (g s y))
    (others : ∀ (s : State) (y : HeldWrite), (g s y).pool.holds = s.pool.holds ∨ (g s y).pool.holds = s.pool.holds.erase y)
    (l : List HeldWrite) (h : Ready E F s) (held : F → l.Nodup ∧ ∀ y ∈ l, y ∈ s.pool.holds) : Acts E F G s (l.foldl g s) := by
  induction l generalizing s with
  | nil => exact .refl
  | cons y l ih =>
    refine Acts.bind h (one s y h fun f => (held f).2 y List.mem_cons_self) fun k => ih k fun f => ?_
    obtain ⟨nodup, mem⟩ := held f
    rw [List.nodup_cons] at nodup
    refine ⟨nodup.2, fun z hz => ?_⟩
    have m := mem z (List.mem_cons_of_mem y hz)
    have ne : z ≠ y := fun e => nodup.1 (e ▸ hz)
    obtain e | e := others s y <;> rw [e]
    · exact m
    · exact (List.mem_erase_of_ne ne).2 m

theorem State.PortsLawful.holds_nodup (h : s.PortsLawful) : s.pool.holds.Nodup := .of_map _ h.ports

theorem State.examineHolds_acts (h : Ready E F s) : Acts E F G s s.examineHolds :=
  State.eachHeld_acts (fun _ _ k held => State.examineHold_acts k held) (fun s y => s.examineHold_holds y) _ h
    fun f => ⟨(h.ports f).holds_nodup, fun _ => id⟩

theorem State.examineIf_acts (h : Ready E F s) (b : Bool) : Acts E F G s (s.examineIf b) := by
  cases b
  · exact .refl
  · exact State.examineHolds_acts h

theorem State.earlyClose_acts (h : Ready E F s) (p : Port) : Acts E F G s (s.earlyClose p) := by
  unfold State.earlyClose
  split
  · exact .refl
  · next b l e => exact .single (.close s b fun i => (((h.pool i).gathering_iff p b).1 (e ▸ List.mem_cons_self)).1)

/-- A buffer that closes leaves a record without a GATHERING buffer without one. -/
theorem State.closeBuffer_gatheringOf {r : RegionId} {k : Nat} (one : s.gatheringOf r k = none) (b : BufId) :
    (s.closeBuffer b).gatheringOf r k = none := by
  unfold State.gatheringOf at one ⊢
  rw [List.find?_eq_none] at one ⊢
  intro c hc
  rw [State.closeBuffer_buffer]
  split
  · simp
  · exact one c hc

theorem State.earlyClose_gatheringOf {r : RegionId} {k : Nat} (one : s.gatheringOf r k = none) (p : Port) :
    (s.earlyClose p).gatheringOf r k = none := by
  unfold State.earlyClose
  split
  · exact one
  · exact State.closeBuffer_gatheringOf one _

theorem State.WriterOf.writes {p : Port} {x : Spot} {fs : List Field} (h : s.WriterOf p x) (w : s.Writes fs t)
    (n : Field.regions ∉ fs := by decide) : t.WriterOf p x := by
  have e := w.regions n
  exact ⟨by rw [State.region, e]; exact h.active, by rw [State.definition, State.region, e]; exact h.writer⟩

theorem State.earlyClose_holds (s : State) (p : Port) : (s.earlyClose p).pool.holds = s.pool.holds := by
  unfold State.earlyClose
  split <;> rfl

/-- A write piece of a port for its path: what the router knows of it (02 R27, R28). -/
structure State.WritePiece (F G : Prop) (s : State) (p : Port) (x : Spot) (n : Nat) : Prop where
  writer : s.WriterOf p x
  servable : s.Servable G p
  unheld : F → s.Unheld p
  request : ∃ r rest, (s.port p).queue = r :: rest ∧ 1 ≤ n ∧ (s.port p).service.next + n ≤ r.beats

theorem State.WritePiece.busy {p : Port} {x : Spot} {n : Nat} (h : s.WritePiece F G p x n) : (s.port p).queue ≠ [] := by
  obtain ⟨r, rest, queue, -⟩ := h.request
  rw [queue]
  nofun

theorem State.WritePiece.writes {p : Port} {x : Spot} {n : Nat} (h : s.WritePiece F G p x n) {fs : List Field} (w : s.Writes fs t)
    (holds : t.pool.holds = s.pool.holds) (r : Field.regions ∉ fs := by decide) (l : Field.ports ∉ fs := by decide) :
    t.WritePiece F G p x n := by
  refine ⟨h.writer.writes w r, h.servable.writes w l, fun f => ?_, ?_⟩
  · rw [State.Unheld, holds]; exact h.unheld f
  · rw [State.port_of_ports (w.ports l)]; exact h.request

theorem State.exhausted_acts (h : Ready E F s) {p : Port} {x : Spot} {ws : List WriteWord} (piece : s.WritePiece F G p x ws.length)
    (one : s.gatheringOf x.region x.record = none) (a : Word) : Acts E F G s (s.exhausted p x a ws) := by
  have posted : Acts E F G s (s.postExhausted p x) := .other (s.postExhausted_writes ..)
  rw [s.exhausted_eq]
  split
  · refine (posted.trans (State.tearThrough_acts ..)).tail (.request _ p _ _ _ _ (piece.servable.writes
      ((s.postExhausted_writes p x).seq (State.tearThrough_writes _ p x))) (fun _ => ?_) (.inl rfl))
    rw [State.port_of_ports ((s.postExhausted_writes p x).seq (State.tearThrough_writes _ p x)).ports]
    exact piece.busy
  · exact posted.trans (State.finishPiece_acts (piece.servable.writes (s.postExhausted_writes p x)) (fun _ => piece.busy) ..)
  · have closed := posted.bind h fun k => State.earlyClose_acts k p
    have kept : ((s.postExhausted p x).earlyClose p).WritePiece F G p x ws.length :=
      piece.writes ((s.postExhausted_writes p x).seq (State.earlyClose_writes _ p)) (State.earlyClose_holds ..)
    obtain ⟨r, rest, queue, words, within⟩ := kept.request
    refine Acts.bind h (closed.tail (.hold _ p x ws r rest kept.writer ?_ kept.servable kept.unheld queue words within))
      State.examineHolds_acts
    exact State.earlyClose_gatheringOf (s := s.postExhausted p x) one p

theorem State.stagePiece_acts (h : Ready E F s) {p : Port} {x : Spot} {ws : List WriteWord} (piece : s.WritePiece F G p x ws.length)
    (a : Word) : Acts E F G s (s.stagePiece p x a ws) := by
  unfold State.stagePiece
  dsimp only
  split
  · exact State.finishPiece_acts piece.servable (fun _ => piece.busy) ..
  · split
    · next b e =>
      refine Acts.bind h ?_ fun k => State.examineIf_acts k _
      refine (State.stageIn_acts (s.gatheringOf_eq_some e).1 ..).trans
        (State.finishPiece_acts (piece.servable.writes (s.stageIn_writes ..)) (fun _ => ?_) ..)
      rw [State.port_of_ports (s.stageIn_writes b x _).ports]
      exact piece.busy
    · next one =>
      split
      · next can =>
        refine Acts.bind h ?_ fun k => State.examineIf_acts k _
        refine (State.openUpdate_acts can one piece.writer piece.unheld _).trans
          (State.finishPiece_acts (piece.servable.writes (s.openUpdate_writes ..)) (fun _ => ?_) ..)
        rw [State.port_of_ports (s.openUpdate_writes p x _).ports]
        exact piece.busy
      · exact State.exhausted_acts h (by rw [setAside_length]; exact piece) one a

theorem State.abandonBuffer_acts {b : BufId} (g : E → (s.buffer b).state = .gathering) (x : AbandonCause) :
    Acts E F G s (s.abandonBuffer x b) := .head (.free s b g) (Acts.other (State.post_writes ..))

theorem State.refuseHold_acts (x : RefusedCause) (h : Ready E F s) {y : HeldWrite} (held : F → y ∈ s.pool.holds) :
    Acts E F G s (s.refuseHold x y) := by
  refine .head (.dropHold s y) (Relation.ReflTransGen.tail (Acts.other (State.post_writes ..)) (.endHeld _ _ _ _ (fun f => ?_) fun f => ?_))
  · exact (h.ports f).unheld_erase (held f)
  · obtain ⟨r, rest, -, piece, -⟩ := (h.ports f).piece y (held f)
    exact ⟨_, piece, rfl⟩

/-! ### The view store's and the capture engine's operations as acts (05) -/

variable (s) in
theorem State.releaseView_acts (p : Port) (v : ViewIx) : Acts E F G s (s.releaseView p v) := by
  unfold State.releaseView
  dsimp only
  split
  · next none => exact .single (.freeView s p v none)
  · next c e =>
    split
    · next q => exact .single (.withdraw s p v c e q)
    · next q => exact .single (.cancel s p v c e q)
    · exact .single (.unview s p v)

theorem State.releaseAndGiveBack_acts (h : Ready E F s) (pv : Port × ViewIx) : Acts E F G s (s.releaseAndGiveBack pv) := by
  have released : Acts E F G s (s.releaseView pv.1 pv.2) := s.releaseView_acts ..
  unfold State.releaseAndGiveBack
  dsimp only
  split
  · exact released
  · next x piece =>
    split
    · next w =>
      refine released.tail (.serve _ _ _ (fun y e => ?_) (fun f => ((released.ready h).ports f).busy piece) nofun)
      rw [piece] at e
      cases e
      rw [w]
      exact ⟨nofun, fun _ => .inr ⟨_, rfl⟩⟩
    · exact released

theorem State.releaseAll_acts (h : Ready E F s) (l : List (Port × ViewIx)) : Acts E F G s (s.releaseAll l) := by
  unfold State.releaseAll
  induction l generalizing s with
  | nil => exact .refl
  | cons x l ih => exact Acts.bind h (State.releaseAndGiveBack_acts h x) fun k => ih k

theorem State.giveBackAwaiting_acts (h : Ready E F s) (r : RegionId) : Acts E F G s (s.giveBackAwaiting r) := by
  unfold State.giveBackAwaiting
  generalize allPorts = l
  induction l generalizing s with
  | nil => exact .refl
  | cons p l ih =>
    refine Acts.bind h ?_ fun k => ih k
    dsimp only
    split
    · next awaits =>
      unfold State.awaitsViewIn at awaits
      cases piece : (s.port p).service.piece with
      | none => rw [piece] at awaits; cases awaits
      | some x =>
        rw [piece] at awaits
        refine .single (.serve _ _ _ (fun y e => ?_) (fun f => (h.ports f).busy piece) nofun)
        rw [piece] at e
        cases e
        rw [Bool.and_eq_true, beq_iff_eq] at awaits
        rw [awaits.1]
        exact ⟨nofun, fun _ => .inl rfl⟩
    · exact .refl

theorem State.answerFromView_acts {p : Port} (servable : s.Servable G p) (busy : F → (s.port p).queue ≠ []) {v : ViewIx}
    (open' : (s.view p v).state ≠ .free) (x : Spot) (n : Nat) : Acts E F G s (s.answerFromView p v x n) := by
  have answered : Acts E F G s ((s.finishPiece p n (statusOfMark (s.view p v).torn)
      (viewWords (s.definition x.region) (s.view p v) x.offset n)).setUseList p ((s.views.get p).useList.erase v ++ [v])) :=
    (State.finishPiece_acts servable busy ..).tail (.touch _ p v open')
  unfold State.answerFromView
  dsimp only
  split
  · exact answered.trans (State.releaseView_acts ..)
  · exact answered

theorem State.serveFromView_acts {p : Port} (servable : s.Servable G p) (busy : F → (s.port p).queue ≠ []) {v : ViewIx}
    (open' : (s.view p v).state ≠ .free) (x : Spot) (n : Nat) : Acts E F G s (s.serveFromView p v x n) := by
  unfold State.serveFromView
  split
  · exact State.answerFromView_acts servable busy open' ..
  · exact State.awaitPiece_acts servable busy _ _ (.inr ⟨v, rfl⟩)

theorem State.setViews_view (s : State) (p q : Port) (x : PortViews) (w : ViewIx) :
    (s.setViews p x).view q w = if q = p then cell x.views w else s.view q w := by
  show cell ((s.views.set p x).get q).views w = _
  rw [PerPort.get_set]
  split <;> rfl

theorem State.freeView_view (s : State) (p q : Port) (v w : ViewIx) :
    (s.freeView p v).view q w = if q = p ∧ w = v then { s.view p v with state := .free } else s.view q w := by
  unfold State.freeView
  rw [State.setViews_view, cell_put]
  by_cases hq : q = p
  · subst hq
    simp only [if_true, true_and]
    rfl
  · rw [if_neg hq, if_neg fun h => hq h.1]

/-- A release writes no view but its own (05 R103). -/
theorem State.releaseView_view (s : State) (p q : Port) (v w : ViewIx) :
    (s.releaseView p v).view q w = if q = p ∧ w = v then { s.view p v with state := .free } else s.view q w := by
  have views : (s.releaseView p v).views = (s.freeView p v).views := by
    unfold State.releaseView
    dsimp only
    split
    · rfl
    · split
      · exact (State.endCapture_writes ..).views
      · exact (State.endCapture_writes ..).views
      · rfl
  rw [State.view, views]
  exact s.freeView_view p q v w

/-- An opening view takes one word as its basis supplies it (05 R89). -/
def View.supply (l : List Buffer) (x : View) (k : Nat) : View :=
  { x with
    image := putD x.image k (overlay l k).data
    supplied := putD x.supplied k (overlay l k).enables
    fill := putD x.fill k ((overlay l k).enables == 0xF) }

/-- An opening view takes the version word (05 R89). -/
def View.withVersionWord (d : Definition) (x : View) : View :=
  match d.versionWord with
  | none => x
  | some k => { x with image := putD x.image k (versionAsWord x.version), fill := putD x.fill k true }

theorem openedView_eq (d : Definition) (x : View) (l : List Buffer) :
    openedView d x l = ((run 0 d.recordWords).foldl (View.supply l) x).withVersionWord d := rfl

/-- What an opening writes of the view is its words (05 R89). -/
theorem openedView_fields (d : Definition) (x : View) (l : List Buffer) : (openedView d x l).state = x.state ∧
    (openedView d x l).region = x.region ∧ (openedView d x l).record = x.record := by
  have supplied : ∀ (ks : List Nat) (x : View), (ks.foldl (View.supply l) x).state = x.state ∧
      (ks.foldl (View.supply l) x).region = x.region ∧ (ks.foldl (View.supply l) x).record = x.record := fun ks => by
    induction ks with
    | nil => exact fun x => ⟨rfl, rfl, rfl⟩
    | cons k ks ih => exact fun x => ih (x.supply l k)
  rw [openedView_eq]
  unfold View.withVersionWord
  split <;> exact supplied ..

/-- What an opening does to the view store and the capture queue (05 R85, R90, R91). -/
theorem State.openView_view (s : State) (p : Port) (v : ViewIx) (r : RegionId) (k : Nat) :
    ∃ x : View, x.region = r ∧ x.record = k ∧ (∀ q w, (s.openView p v r k).view q w = if q = p ∧ w = v then x else s.view q w) ∧
      ((s.openView p v r k).views.get p).useList = (s.views.get p).useList ++ [v] ∧
      (∀ q, q ≠ p → (s.openView p v r k).views.get q = s.views.get q) ∧
      ((x.state = .held ∧ x.completeTime = s.timebase ∧ (s.openView p v r k).captures = s.captures) ∨
        (x.state = .capturing ∧ ∃ c : Capture, c.view = some v ∧ c.port = p ∧ c.region = r ∧ c.record = k ∧ c.holdSet = [] ∧
          c.state = .queued ∧ (s.openView p v r k).captures = s.captures ++ [c])) := by
  have view : ∀ (y : View) (l : List ViewIx) (q : Port) (w : ViewIx),
      (s.setViews p ⟨put (s.views.get p).views v y, l⟩).view q w = if q = p ∧ w = v then y else s.view q w := fun y l q w => by
    rw [State.setViews_view, cell_put]
    by_cases hq : q = p
    · subst hq
      simp only [if_true, true_and]
      rfl
    · rw [if_neg hq, if_neg fun h => hq h.1]
  unfold State.openView
  dsimp only
  split
  · exact ⟨_, (openedView_fields ..).2.1, (openedView_fields ..).2.2, view _ _, by show ((s.views.set p _).get p).useList = _; rw [PerPort.get_set_same],
      fun q ne => PerPort.get_set_other _ _ ne, .inl ⟨rfl, rfl, rfl⟩⟩
  · exact ⟨_, (openedView_fields ..).2.1, (openedView_fields ..).2.2, view _ _, by show ((s.views.set p _).get p).useList = _; rw [PerPort.get_set_same],
      fun q ne => PerPort.get_set_other _ _ ne, .inr ⟨(openedView_fields ..).1, _, rfl, rfl, rfl, rfl, rfl, rfl, rfl⟩⟩

theorem mem_allViews (v : ViewIx) : v ∈ allViews := by revert v; decide

theorem State.viewOf_eq_some {p : Port} {r : RegionId} {k : Nat} {v : ViewIx} (h : s.viewOf p r k = some v) :
    (s.view p v).state ≠ .free ∧ (s.view p v).region = r ∧ (s.view p v).record = k := by
  have found := List.find?_some h
  simp only [View.ofRecord, Bool.and_eq_true, bne_iff_ne, beq_iff_eq] at found
  exact ⟨found.1.1, found.1.2, found.2⟩

theorem State.viewOf_eq_none {p : Port} {r : RegionId} {k : Nat} : s.viewOf p r k = none ↔
    ∀ v, (s.view p v).state ≠ .free → ¬((s.view p v).region = r ∧ (s.view p v).record = k) := by
  unfold State.viewOf
  rw [List.find?_eq_none]
  refine ⟨fun h v n => ?_, fun h v _ => ?_⟩
  · have none := h v (mem_allViews v)
    simp only [View.ofRecord, Bool.and_eq_true, bne_iff_ne, beq_iff_eq] at none
    exact fun e => none ⟨⟨n, e.1⟩, e.2⟩
  · simp only [View.ofRecord, Bool.and_eq_true, bne_iff_ne, beq_iff_eq]
    exact fun e => h v e.1.1 ⟨e.1.2, e.2⟩

theorem State.viewPiece_acts {p : Port} (servable : s.Servable G p) (busy : F → (s.port p).queue ≠ []) {x : Spot}
    (active : (s.region x.region).state = .active) (n : Nat) : Acts E F G s (s.viewPiece p x n) := by
  unfold State.viewPiece
  split
  · next v e => exact State.serveFromView_acts servable busy (State.viewOf_eq_some e).1 ..
  · next none =>
    split
    · exact State.awaitPiece_acts servable busy _ _ (.inl rfl)
    · next v _ =>
      have opened := (s.releaseView_writes p v).seq (State.openView_writes (s.releaseView p v) p v x.region x.record)
      have released := s.releaseView_view p
      have act : Act E F G (s.releaseView p v) ((s.releaseView p v).openView p v x.region x.record) := by
        refine .openView _ p v _ _ ?_ (State.viewOf_eq_none.2 fun w n => ?_) ?_
        · rw [released, if_pos ⟨rfl, rfl⟩]
        · rw [released] at n ⊢
          split at n
          · exact absurd rfl n
          · next ne => rw [if_neg ne]; exact State.viewOf_eq_none.1 none w n
        · rw [State.region, (s.releaseView_writes p v).regions]; exact active
      refine ((s.releaseView_acts p v).tail act).trans
        (State.serveFromView_acts (servable.writes opened) (fun f => ?_) ?_ ..)
      · rw [State.port_of_ports opened.ports]
        exact busy f
      · obtain ⟨y, -, -, view, -, -, state⟩ := (s.releaseView p v).openView_view p v x.region x.record
        rw [view, if_pos ⟨rfl, rfl⟩]
        obtain ⟨held, -⟩ | ⟨capturing, -⟩ := state
        · rw [held]; nofun
        · rw [capturing]; nofun

/-- A piece that waits on a view is the view store's (05 R98). -/
theorem State.servable_of_onView {p : Port} {x : Piece} (piece : (s.port p).service.piece = some x) {v : ViewIx} (w : x.wait = .onView v) :
    s.Servable G p := fun y e => by
  rw [piece] at e
  cases e
  rw [w]
  exact ⟨nofun, fun _ => .inr ⟨v, rfl⟩⟩

/-- A capture's end, and its view HELD with the capture's words (05 R96). -/
def State.filledCapture (s : State) (c : Capture) (v : ViewIx) : State :=
  (s.endCapture c).setView c.port v
    { fillRun ((s.endCapture c).view c.port v) c.first c.answers with state := .held, completeTime := (s.endCapture c).timebase }

/-- A completed capture fills its view, if it has one, and the piece that waits on the view is answered (05 R96). -/
theorem State.completeCapture_eq (s : State) (c : Capture) : s.completeCapture c = match c.view with
    | none => s.endCapture c
    | some v => match ((s.filledCapture c v).port c.port).service.piece with
      | none => s.filledCapture c v
      | some x => match x.spot with
        | none => s.filledCapture c v
        | some spot => if x.wait = .onView v then (s.filledCapture c v).answerFromView c.port v spot x.beats else s.filledCapture c v := by
  cases c with
  | mk view _ _ _ _ _ _ _ _ => cases view <;> rfl

theorem fillRun_fields (x : View) (k : Nat) (l : List Answer) : (fillRun x k l).region = x.region ∧ (fillRun x k l).record = x.record := by
  induction l generalizing x k with
  | nil => exact ⟨rfl, rfl⟩
  | cons a l ih =>
    unfold fillRun
    obtain ⟨region, record⟩ := ih (fillWord x k a.word) (k + 1)
    rw [region, record]
    unfold fillWord
    split <;> exact ⟨rfl, rfl⟩

theorem State.filledCapture_view (s : State) (c : Capture) (v : ViewIx) : ((s.filledCapture c v).view c.port v).state = .held := by
  unfold State.filledCapture State.setView
  rw [State.setViews_view, if_pos rfl, cell_put_same]

theorem State.filledCapture_acts (g : ¬G) {c : Capture} (mem : c ∈ s.captures) {v : ViewIx} (view : c.view = some v) :
    Act E F G s (s.filledCapture c v) := by
  have views : (s.endCapture c).view c.port v = s.view c.port v := by
    rw [State.view, (s.endCapture_writes c).views]; rfl
  refine .fill s c v _ g mem view rfl ?_ ?_ (s.endCapture_writes c).timebase
  · exact (fillRun_fields ..).1.trans (by rw [views])
  · exact (fillRun_fields ..).2.trans (by rw [views])

/-- The piece that waits on a view just filled is answered from it (05 R96, R98). -/
theorem State.completeCapture_rest {c : Capture} {v : ViewIx} (view : c.view = some v) (filled : Ready E F (s.filledCapture c v)) :
    Acts E F G (s.filledCapture c v) (s.completeCapture c) := by
  have held := s.filledCapture_view c v
  rw [State.completeCapture_eq, view]
  dsimp only
  generalize s.filledCapture c v = t at filled held
  split
  · exact .refl
  · next x piece =>
    split
    · exact .refl
    · split
      · next w =>
        exact State.answerFromView_acts (State.servable_of_onView piece w) (fun f => (filled.ports f).busy piece)
          (by rw [held]; nofun) ..
      · exact .refl

theorem State.completeCapture_acts (h : Ready E F s) (g : ¬G) {c : Capture} (mem : c ∈ s.captures) :
    Acts E F G s (s.completeCapture c) := by
  cases view : c.view with
  | none =>
    rw [State.completeCapture_eq, view]
    exact .single (.endCapture s c g mem view)
  | some v =>
    have filled : Acts E F G s (s.filledCapture c v) := .single (State.filledCapture_acts g mem view)
    exact filled.bind h (State.completeCapture_rest view)

/-- A faulted capture's end, and its view released (05 R102). -/
def State.failedCapture (s : State) (c : Capture) (v : ViewIx) : State := (s.endCapture c).releaseView c.port v

theorem State.faultCapture_eq (s : State) (c : Capture) : s.faultCapture c = match c.view with
    | none => s.endCapture c
    | some v => (match ((s.failedCapture c v).port c.port).service.piece with
      | none => s.failedCapture c v
      | some x => if x.wait = Wait.onView v then
          (s.failedCapture c v).finishPiece c.port x.beats .fault (List.replicate x.beats 0)
        else s.failedCapture c v).post (.memoryFault (c.first + firstFault c.answers)) c.region c.port c.record
          (s.version c.region c.record) := by
  cases c with
  | mk view _ _ _ _ _ _ _ _ => cases view <;> rfl

/-- The piece that waits on a view whose capture faulted is answered FAULT (05 R102). -/
theorem State.faultCapture_rest {c : Capture} {v : ViewIx} (view : c.view = some v) (failed : Ready E F (s.failedCapture c v)) :
    Acts E F G (s.failedCapture c v) (s.faultCapture c) := by
  rw [State.faultCapture_eq, view]
  dsimp only
  generalize s.failedCapture c v = t at failed
  refine Acts.trans ?_ (Acts.other (State.post_writes ..))
  split
  · exact .refl
  · next x piece =>
    split
    · next w => exact State.finishPiece_acts (State.servable_of_onView piece w) (fun f => (failed.ports f).busy piece) ..
    · exact .refl

theorem State.faultCapture_acts (h : Ready E F s) (g : ¬G) {c : Capture} (mem : c ∈ s.captures) :
    Acts E F G s (s.faultCapture c) := by
  cases view : c.view with
  | none =>
    rw [State.faultCapture_eq, view]
    exact .single (.endCapture s c g mem view)
  | some v =>
    have failed : Acts E F G s (s.failedCapture c v) := .single (.fail s c v g mem view)
    exact failed.bind h (State.faultCapture_rest view)

theorem State.endRead_acts (h : Ready E F s) (g : ¬G) : Acts E F G s s.endRead := by
  unfold State.endRead
  split
  · exact .refl
  · next c l e =>
    have mem : c ∈ s.captures := e ▸ List.mem_cons_self
    refine Acts.trans ?_ (Acts.other (State.mapExecuting_writes ..))
    split
    · exact State.faultCapture_acts h g mem
    · exact State.completeCapture_acts h g mem

variable (s) in
theorem State.requestCapture_acts (g : ¬G) : Acts E F G s s.requestCapture := by
  unfold State.requestCapture
  split
  · exact .refl
  · split
    · exact .refl
    · next c l e =>
      exact .head (.relabel s _ g (by rw [e]; rfl)) (.single (.memory g (State.setCaptureRequest_writes ..).mono))

/-! ### The router, the commit engine and the memory port as acts (02, 04, 06) -/

/-- A word is guarded only by an ACTIVE region (01 R6). -/
theorem State.spotOf_active {a : Word} {x : Spot} (h : s.spotOf a = some x) : (s.region x.region).state = .active := by
  obtain ⟨r, -, e⟩ := List.exists_of_findSome?_eq_some h
  split at e
  · next a => cases e; exact a.1
  · cases e

/-- A piece has a word, and lies within its request (02 R27). -/
theorem State.runLength_le (s : State) (r : Request) (x : Option Spot) (k n : Nat) : s.runLength r x k n ≤ n := by
  induction n generalizing k with
  | zero => rfl
  | succ n ih =>
    unfold State.runLength
    split
    · have := ih (k + 1)
      omega
    · exact Nat.zero_le _

theorem requestWords_length {r : Request} (write : isRead r = false) {k n : Nat} (h : k + n ≤ r.beats) : (requestWords r k n).length = n := by
  cases r with
  | read a m => cases write
  | write a ws =>
    have : k + n ≤ ws.length := h
    simp [requestWords]
    omega

/-- The router's port in a move: its request, and a piece that is not another's (02 R28). -/
theorem State.servable_of_canAdvance {p : Port} (can : s.canAdvance p = true) : s.Servable G p ∧ (s.port p).queue ≠ [] := by
  unfold State.canAdvance at can
  split at can
  · cases can
  · next queue piece =>
    refine ⟨fun x e => ?_, by rw [queue]; nofun⟩
    rw [piece] at e
    cases e
  · next x queue piece =>
    rw [Bool.and_eq_true, beq_iff_eq] at can
    refine ⟨fun y e => ?_, by rw [queue]; nofun⟩
    rw [piece] at e
    cases e
    rw [can.1]
    exact ⟨nofun, fun _ => .inl rfl⟩

theorem State.handPiece_acts (h : Ready E F s) {p : Port} {spot : Option Spot} (active : ∀ x, spot = some x → (s.region x.region).state = .active)
    (servable : s.Servable G p) {r : Request} {rest : List Request} (queue : (s.port p).queue = r :: rest) {n : Nat} (words : 1 ≤ n)
    (within : (s.port p).service.next + n ≤ r.beats) : Acts E F G s (s.handPiece p r (s.port p).service.next n spot) := by
  have busy : F → (s.port p).queue ≠ [] := fun _ => by rw [queue]; nofun
  have plain : ∀ x, Acts E F G s (s.plainPiece p r (s.port p).service.next n x) := fun x =>
    .single (.request s p _ n x _ servable busy (.inl rfl))
  unfold State.handPiece
  dsimp only
  split
  · exact plain none
  · next x =>
    split
    · next writer =>
      split
      · unfold State.readOwn
        dsimp only
        split
        · exact State.finishPiece_acts servable busy ..
        · exact .single (.request s p _ _ _ _ servable busy (.inr ⟨_, rfl⟩))
      · next write =>
        have length := requestWords_length (by simpa using write) within
        exact State.stagePiece_acts h ⟨⟨active x rfl, writer⟩, servable, fun f => (h.ports f).unheld servable,
          r, rest, queue, by rw [length]; exact words, by rw [length]; exact within⟩ _
    · split
      · split
        · exact State.viewPiece_acts servable busy (active x rfl) _
        · exact plain _
      · exact (Acts.other (s.post_writes ..)).trans (State.finishPiece_acts (servable.writes (s.post_writes ..)) busy ..)

theorem State.advance_acts (h : Ready E F s) {p : Port} (can : s.canAdvance p = true) : Acts E F G s (s.advance p) := by
  obtain ⟨servable, busy⟩ := State.servable_of_canAdvance (G := G) can
  unfold State.advance
  split
  · exact .refl
  · next r rest queue =>
    dsimp only
    split
    · exact .single (.respond s p r rest servable queue)
    · next more =>
      split
      · exact State.finishPiece_acts servable (fun _ => busy) ..
      · refine State.handPiece_acts h (fun x e => State.spotOf_active e) servable queue (Nat.le_add_right ..) ?_
        have := s.runLength_le r (s.spotOf (beatAddress r (s.port p).service.next)) ((s.port p).service.next + 1)
          (r.beats - ((s.port p).service.next + 1))
        omega

variable (s) in
theorem State.settleRecord_acts (b : BufId) (faulted : Bool) : Acts E F G s (s.settleRecord b faulted) := by
  unfold State.settleRecord
  dsimp only
  split
  · exact ((Acts.other (s.setVersions_writes _)).trans (State.makePreTorn_acts ..)).trans (Acts.other (State.post_writes ..))
  · exact .other (s.setVersions_writes _)

variable (s) in
theorem State.mapExecuting_setEngine (f : Executing → Executing) (e : CommitEngine) :
    (s.mapExecuting f).setEngine e = (s.setEngine e).mapExecuting f := by
  unfold State.mapExecuting
  rw [show (s.setEngine e).link = s.link from rfl]
  cases s.link.state <;> rfl

variable (s) in
theorem State.settledCommit_acts (job : CommitJob) : Acts E F G s (s.settledCommit job) :=
  (s.settleRecord_acts ..).trans (Acts.other (State.evaluateWatches_writes ..))

theorem State.freedCommit_acts (g : ¬G) {job : CommitJob} (writing : s.engine = .writing job) : Acts E F G s (s.freedCommit job) := by
  have same : (s.settledCommit job).engine = .writing job := (s.settledCommit_writes job).engine.trans writing
  refine (s.settledCommit_acts job).trans ?_
  show Acts E F G (s.settledCommit job)
    ((((s.settledCommit job).freeCommitted job.buffer).mapExecuting fun e => e.afterCommit (s.buffer job.buffer).region).setEngine .idle)
  rw [State.mapExecuting_setEngine]
  exact .head (.commit _ job g same) (Acts.other (State.mapExecuting_writes ..))

/-- After a commit's buffer is freed the held writes are examined, and the engine takes its next buffer (04 R79). -/
theorem State.completeCommit_rest {job : CommitJob} (freed : Ready E F (s.freedCommit job)) :
    Acts E F G (s.freedCommit job) (s.completeCommit job) := by
  rw [State.completeCommit_eq]
  exact (State.examineHolds_acts freed).tail (.take _)

theorem State.completeCommit_acts (h : Ready E F s) (g : ¬G) {job : CommitJob} (writing : s.engine = .writing job) :
    Acts E F G s (s.completeCommit job) :=
  (State.freedCommit_acts g writing).bind h State.completeCommit_rest

theorem State.endPlain_acts (h : Ready E F s) (g : ¬G) (p : Port) (as : List Answer) : Acts E F G s (s.endPlain p as) := by
  unfold State.endPlain
  split
  · exact .refl
  · next x piece =>
    have servable : x.wait ≠ .held → s.Servable G p := fun w y e => by
      rw [piece] at e
      cases e
      exact ⟨w, fun k => absurd k g⟩
    have busy : F → (s.port p).queue ≠ [] := fun f => (h.ports f).busy piece
    split
    · next w => exact State.finishPiece_acts (servable (by rw [w]; nofun)) busy ..
    · next w => exact State.finishPiece_acts (servable (by rw [w]; nofun)) busy ..
    all_goals exact .refl

theorem State.endTransaction_acts (h : Ready E F s) (g : ¬G) (q : Requester) (as : List Answer) (d : Bool) :
    Acts E F G s (s.endTransaction q as d) := by
  have idle : Acts E F G s s.idlePort := .single (.memory g s.idlePort_writes.mono)
  obtain e | ⟨p, -, -, e⟩ | ⟨job, -, -, writing, e⟩ | ⟨-, -, e⟩ := s.endTransaction_cases q as d <;> rw [e]
  · exact idle
  · exact idle.bind h fun k => State.endPlain_acts k g ..
  · exact idle.bind h fun k => State.completeCommit_acts k g writing
  · exact idle.bind h fun k => State.endRead_acts k g

variable (s) in
theorem State.handOn_acts (g : ¬G) (q : Requester) (f : List Answer → List Answer) : Acts E F G s (s.handOn q f) := by
  unfold State.handOn
  split
  · exact .refl
  · split
    · exact .refl
    · exact .refl
    · next job e => exact .single (.engine s _ g (by rw [e]; rfl))
  · split
    · exact .refl
    · next c l e => exact .single (.relabel s _ g (by rw [e]; rfl))

variable (s) in
theorem State.recordAnswers_acts (g : ¬G) (t : Transaction) (f : List Answer → List Answer) : Acts E F G s (s.recordAnswers t f) := by
  have recorded : Acts E F G s (s.setMem { s.mem with outstanding := some { t with answers := f t.answers } }) :=
    .single (.memory g (s.setOutstanding_writes _).mono)
  unfold State.recordAnswers
  dsimp only
  split
  · exact recorded
  · exact recorded.trans (State.handOn_acts _ g ..)

theorem State.takeAnswers_acts (h : Ready E F s) (g : ¬G) (t : Transaction) (f : List Answer → List Answer) :
    Acts E F G s (s.takeAnswers t f) := by
  rw [State.takeAnswers_eq]
  split
  · exact (s.recordAnswers_acts g t f).bind h fun k => State.endTransaction_acts k g ..
  · exact s.recordAnswers_acts g t f

variable (s) in
theorem State.tellGrant_acts (g : ¬G) (q : Requester) : Acts E F G s (s.tellGrant q) := by
  unfold State.tellGrant
  split
  · exact .refl
  · split
    · exact .refl
    · next job e => exact .single (.engine s _ g (by rw [e]; rfl))
    · exact .refl
  · split
    · exact .refl
    · next c l e => exact .single (.relabel s _ g (by rw [e]; rfl))

variable (s) in
theorem State.grant_acts (g : ¬G) : Acts E F G s s.grant := by
  unfold State.grant
  split
  · exact .refl
  · split
    · exact .refl
    · split
      · exact .refl
      · exact .head (.memory g (s.setMem_writes _)) (State.tellGrant_acts _ g _)

end

/-! ### Commands, expiries and resets as acts -/

section
variable {E F G : Prop} {s t : State}

/-- One operation after another on different GATHERING buffers, each of which leaves the other buffers' states alone. -/
theorem State.eachGathering_acts {g : State → BufId → State}
    (one : ∀ (s : State) (b : BufId), (E → (s.buffer b).state = .gathering) → Acts E F G s (g s b))
    (others : ∀ (s : State) (b c : BufId), c ≠ b → ((g s b).buffer c).state = (s.buffer c).state) {l : List BufId}
    (all : E → l.Nodup ∧ ∀ b ∈ l, (s.buffer b).state = .gathering) : Acts E F G s (l.foldl g s) := by
  induction l generalizing s with
  | nil => exact .refl
  | cons b l ih =>
    refine (one s b fun e => (all e).2 b List.mem_cons_self).trans (ih fun e => ?_)
    obtain ⟨nodup, gathering⟩ := all e
    rw [List.nodup_cons] at nodup
    refine ⟨nodup.2, fun c hc => ?_⟩
    rw [others s b c fun e => nodup.1 (e ▸ hc)]
    exact gathering c (List.mem_cons_of_mem b hc)

theorem State.closeBuffer_others (s : State) (b c : BufId) (ne : c ≠ b) : (s.closeBuffer b).buffer c = s.buffer c := by
  rw [State.closeBuffer_buffer, if_neg ne]

theorem State.abandonBuffer_others (x : AbandonCause) (s : State) (b c : BufId) (ne : c ≠ b) :
    (s.abandonBuffer x b).buffer c = s.buffer c :=
  (s.freeGathering_buffer b c).trans (if_neg ne)

theorem State.abandonAll_acts (h : E → s.PoolLawful) (p : Port) (x : AbandonCause) : Acts E F G s (s.abandonAll p x) :=
  State.eachGathering_acts (fun _ _ g => State.abandonBuffer_acts g x)
    (fun s b c ne => by rw [s.abandonBuffer_others x b c ne])
    fun e => ⟨(h e).gathering_nodup p, fun b m => (((h e).gathering_iff p b).1 m).1⟩

/-- The views of the region released, and the pieces that await one given back (05 R106). -/
def State.unviewed (s : State) (r : RegionId) : State :=
  ((s.setRegionState r .draining).releaseAll (s.viewsWhere fun _ x => x.region = r)).giveBackAwaiting r

/-- Then the region's GATHERING buffers abandoned or closed (03 R65). -/
def State.undone (s : State) (r : RegionId) (m : DrainMode) : State :=
  match m with
  | .abandon => (s.gatheringIn r).foldl (State.abandonBuffer · .retire ·) (s.unviewed r)
  | .close => (s.gatheringIn r).foldl State.closeBuffer (s.unviewed r)

/-- Then its held writes refused (03 R58): RETIRE's work before the other held writes are examined. -/
def State.drained (s : State) (r : RegionId) (m : DrainMode) : State :=
  ((s.undone r m).holdsIn r).foldl (State.refuseHold · .retired ·) (s.undone r m)

theorem State.retireTaken_eq (s : State) (r : RegionId) (m : DrainMode) : (s.retireTaken r m).1 = (s.drained r m).examineHolds := by
  cases m <;> rfl

theorem State.unviewed_acts (h : Ready E F s) (r : RegionId) : Acts E F G (s.setRegionState r .draining) (s.unviewed r) :=
  (State.releaseAll_acts (h.congr (s.setRegions_writes _)) _).bind (h.congr (s.setRegions_writes _)) fun k =>
    State.giveBackAwaiting_acts k r

theorem State.unviewed_keepsUpdates (s : State) (r : RegionId) : s.KeepsUpdates (s.unviewed r) :=
  ((State.KeepsUpdates.of_writes (s.setRegions_writes _)).trans (State.releaseAll_keepsUpdates ..)).trans
    (.of_writes (State.giveBackAwaiting_writes ..))

theorem State.PoolLawful.gatheringIn (h : s.PoolLawful) (r : RegionId) : (s.gatheringIn r).Nodup ∧
    ∀ b ∈ s.gatheringIn r, (s.buffer b).state = .gathering :=
  ⟨(h.gathering_nodup _).filter _, fun b m => ((h.gathering_iff _ b).1 (List.mem_filter.1 m).1).1⟩

theorem State.undone_acts (h : E → s.PoolLawful) (r : RegionId) (m : DrainMode) : Acts E F G (s.unviewed r) (s.undone r m) := by
  have still : E → (s.gatheringIn r).Nodup ∧ ∀ b ∈ s.gatheringIn r, ((s.unviewed r).buffer b).state = .gathering := fun e => by
    obtain ⟨nodup, gathering⟩ := (h e).gatheringIn r
    exact ⟨nodup, fun b m => ((s.unviewed_keepsUpdates r).state b).trans (gathering b m)⟩
  unfold State.undone
  cases m with
  | abandon =>
    exact State.eachGathering_acts (fun _ _ g => State.abandonBuffer_acts g .retire)
      (fun s b c ne => by rw [s.abandonBuffer_others .retire b c ne]) still
  | close =>
    exact State.eachGathering_acts (fun s b g => .single (.close s b g))
      (fun s b c ne => by rw [s.closeBuffer_others b c ne]) still

theorem State.drained_acts (h : Ready E F s) (r : RegionId) (m : DrainMode) :
    Acts E F G (s.setRegionState r .draining) (s.drained r m) := by
  refine Acts.bind (h.congr (s.setRegions_writes _)) ((State.unviewed_acts h r).trans (State.undone_acts h.pool r m)) fun k => ?_
  exact State.eachHeld_acts (fun _ _ k held => State.refuseHold_acts .retired k held) (fun _ _ => .inr rfl) _ k fun f =>
    ⟨(k.ports f).holds_nodup.filter _, fun y m => (List.mem_filter.1 m).1⟩

theorem State.retireTaken_acts (h : Ready E F s) (r : RegionId) (m : DrainMode) :
    Acts E F G (s.setRegionState r .draining) (s.retireTaken r m).1 := by
  rw [State.retireTaken_eq]
  exact (State.drained_acts h r m).bind (h.congr (s.setRegions_writes _)) State.examineHolds_acts

theorem State.flushTaken_acts (h : Ready E F s) (p : Port) : Acts E F G s (s.flushTaken p).1 := by
  unfold State.flushTaken
  exact ((State.abandonAll_acts h.pool p .flush).bind h fun k => State.releaseAll_acts k _).bind h State.examineHolds_acts

theorem State.doRestart_acts (h : Ready E F s) : Acts E F G s s.doRestart.1 := by
  have discarded : Acts E F G s s.discardUpdates := .single (.discard s)
  unfold State.doRestart
  refine Acts.bind h ?_ State.examineHolds_acts
  exact (discarded.bind h fun k => State.releaseAll_acts k _).trans (Acts.other (State.setEvents_writes ..))

theorem State.abandonAll_holds (s : State) (p : Port) (x : AbandonCause) : (s.abandonAll p x).pool.holds = s.pool.holds := by
  unfold State.abandonAll
  generalize s.pool.gathering.get p = l
  induction l generalizing s with
  | nil => rfl
  | cons b l ih => exact ih (s.abandonBuffer x b)

/-- A port reset up to its hold list: requests dropped, updates abandoned, and the port's held write dropped (02 R38; 03 R63). -/
def State.unported (s : State) (p : Port) : State := ((s.dropRequests p).abandonAll p .portReset).dropHold p

theorem State.resetPort_eq (s : State) (p : Port) :
    s.resetPort p = ((s.unported p).releaseAll (s.viewsOfPort p)).resetPlain p := rfl

theorem State.unported_acts (h : E → s.PoolLawful) (p : Port) : Acts E F G (s.dropRequests p) (s.unported p) :=
  Relation.ReflTransGen.tail (State.abandonAll_acts (fun e => (h e).writes (s.dropRequests_writes p)) p .portReset) (.dropHolds _ p)

/-- The port whose requests are dropped has no held write left (02 R38, 03 R63). -/
theorem State.PortsLawful.unported (h : s.PortsLawful) (p : Port) : (s.unported p).PortsLawful := by
  have port : ∀ q, (s.unported p).port q =
      if q = p then { s.port p with queue := [], service := .fresh, resetLine := true } else s.port q := fun q => by
    have after : (s.dropRequests p).Writes [.pool, .events] (s.unported p) :=
      ((State.abandonAll_writes _ p .portReset).seq (State.dropHold_writes ..)).mono
    rw [State.port_of_ports after.ports]
    exact s.setPort_port p q _
  have holds : (s.unported p).pool.holds = s.pool.holds.filter fun h => h.port != p := by
    show List.filter _ ((s.dropRequests p).abandonAll p .portReset).pool.holds = _
    rw [State.abandonAll_holds]
    rfl
  refine ⟨fun q => ?_, fun q => ?_, holds ▸ h.ports.sublist (List.filter_sublist.map _), fun g m => ?_⟩
  · rw [port]
    split
    · exact Nat.zero_le _
    · exact h.fit q
  · rw [port]
    split
    · exact fun _ => rfl
    · exact h.idle q
  · rw [holds, List.mem_filter, bne_iff_ne] at m
    rw [port, if_neg m.2]
    exact h.piece g m.1

theorem State.expireBuffer_acts (h : Ready E F s) {b : BufId} (g : (s.buffer b).state = .gathering) :
    Acts E F G s (s.expireBuffer b) := by
  unfold State.expireBuffer
  dsimp only
  refine Acts.bind h ?_ State.examineHolds_acts
  refine Acts.trans ?_ (Acts.other (State.post_writes ..))
  split
  · exact .single (.free s b fun _ => g)
  · exact .single (.close s b fun _ => g)

variable (s) in
theorem State.expireView_acts (p : Port) (v : ViewIx) : Acts E F G s (s.expireView p v) :=
  (s.releaseView_acts p v).trans (Acts.other (State.post_writes ..))

/-- What an owner does but for its changes of the region table (01) is acts. -/
theorem Carried.acts {x : Reply} (h : Ready E F s) (c : Carried s t x) :
    Acts E F G s t ∨ (∃ u, s.Writes [.regions, .events] u ∧ Acts E F G u t) := by
  cases c with
  | done d => exact .inl .refl
  | fail c => exact .inl .refl
  | define r d _ _ _ => exact .inr ⟨_, (s.setRegions_writes _).mono, .refl⟩
  | activate r _ _ => exact .inr ⟨_, (s.setRegions_writes _).mono, .refl⟩
  | retire r m _ => exact .inr ⟨_, (s.setRegions_writes _).mono, State.retireTaken_acts h r m⟩
  | clear r d _ => exact .inr ⟨_, ((s.setRegions_writes _).seq (State.clearWatches_writes ..)).mono, .refl⟩
  | clean r k d _ _ => exact .inl (.other (s.setVersions_writes _))
  | setWatch i w r d => exact .inl (.other (s.setWatch_writes ..))
  | clearWatch i d => exact .inl (.other (s.setWatch_writes ..))
  | readEvents n d => exact .inl (.other (s.setEvents_writes _))
  | setMasks q a => exact .inl (.other (s.setEvents_writes _))
  | flush p => exact .inl (State.flushTaken_acts h p)
  | restart => exact .inl (State.doRestart_acts h)

/-- Everything that may happen without a command is acts, but for a long command's completion. -/
theorem Quiet.acts (h : Ready E F s) (g : ¬G) (q : Quiet s t) : Acts E F G s t ∨ t = s.completeLong := by
  cases q with
  | choose n => exact .inl (.other (s.setChoices_writes n))
  | advance p can => exact .inl (State.advance_acts h can)
  | complete => exact .inr rfl
  | refuse y m => exact .inl (State.refuseHold_acts .holdLimit h fun _ => m)
  | expireBuffer b b' => exact .inl (State.expireBuffer_acts h b')
  | expireView p v _ => exact .inl (s.expireView_acts p v)
  | answers tr f _ => exact .inl (State.takeAnswers_acts h g tr f)

end

/-! ### Laws that read neither the ports nor the regions -/

/-- What the parts of a step write that are not acts, and the ports: fields that the laws of the pool and of the views do not read. -/
def unread : List Field := [.pending, .line, .timebase, .regions, .versions, .ports, .plain, .outstanding, .events, .link]

theorem State.pending_writes (s : State) (l : List Instr) : s.Writes [.pending] { s with pending := l } := by
  refine ⟨fun f n => ?_⟩
  cases f
  case pending => exact absurd (by decide) n
  all_goals rfl

/-- A law that the acts keep, that reads none of these fields, and that a hard reset makes good, is kept by every step. -/
theorem Kept.of_acts {E : Prop} {P : State → Prop} (pool : ∀ s, P s → E → s.PoolLawful)
    (act : ∀ s t, Act E False False s t → P s → P t) (reads : ∀ s t, s.Writes unread t → P s → P t)
    (hardReset : ∀ s : State, P s.hardReset) : Kept P := by
  have ready : ∀ {s}, P s → Ready E False s := fun h => ⟨pool _ h, False.elim⟩
  have acts : ∀ {s t}, Acts E False False s t → P s → P t := fun q h => q.keeps act h
  refine ⟨fun s l => reads _ _ (s.pending_writes l).mono, fun s t q h => ?_, fun s p h => ?_,
    fun s p r _ _ => reads _ _ (s.setPort_writes ..).mono, fun s k _ h => ?_, fun s _ => hardReset s,
    fun s => reads _ _ (s.setHardResetLine_writes _).mono, fun s p => reads _ _ (s.setPort_writes ..).mono, fun s _ => reads _ _ ?_,
    fun s h => acts (s.grant_acts id) h, fun s => act _ _ (.take s), fun s => acts (s.requestCapture_acts id),
    fun s t l => reads _ _ l.writes.mono⟩
  · obtain q | rfl := q.acts (ready h) id
    · exact acts q h
    · exact reads _ _ s.completeLong_writes.mono h
  · have dropped : P (s.dropRequests p) := reads _ _ (s.dropRequests_writes p).mono h
    have unported : P (s.unported p) := acts (State.unported_acts (pool s h) p) dropped
    have released : P ((s.unported p).releaseAll (s.viewsOfPort p)) := acts (State.releaseAll_acts (ready unported) _) unported
    have reset : P (s.resetPort p) := reads _ _ (State.resetPlain_writes _ p).mono released
    exact acts (State.examineHolds_acts (ready reset)) reset
  · refine reads _ _ (State.conclude_writes ..).mono ?_
    obtain q | ⟨u, w, q⟩ := (s.carryOut_carried k).acts (G := False) (ready h)
    · exact acts q h
    · exact acts q (reads _ _ w.mono h)
  · exact ((State.setTimebase_writes ..).seq (State.fillEntry_writes _)).mono

theorem State.hardReset_buffer (s : State) : ∀ b, (s.hardReset.buffer b).state = .free := by
  show ∀ b, (State.reset.buffer b).state = .free
  decide

theorem State.hardReset_poolLawful (s : State) : s.hardReset.PoolLawful := by
  have free := s.hardReset_buffer
  have none : ∀ p, s.hardReset.pool.gathering.get p = [] := fun p => by cases p <;> rfl
  refine ⟨fun p b => ?_, fun p => ?_, fun p => ?_, fun b => ?_, List.nodup_nil, fun b => ?_⟩
  · simp [none, free]
  · simp [none]
  · simp [none]
  · simp only [free, reduceCtorEq, or_self, iff_false]
    exact List.not_mem_nil
  · rw [free]
    exact ⟨nofun, nofun⟩

theorem State.poolLawful_kept : Kept State.PoolLawful :=
  .of_acts (E := True) (fun _ h _ => h) (fun _ _ a h => h.act trivial a) (fun _ _ w h => h.writes w) fun s => s.hardReset_poolLawful

end Sys2Proof.Machine

/-! SUPPORT. The waits' law (03 R50; 05 R97; 04 R70) through every act. -/

namespace Sys2Proof.Machine

/-- The hold sets of the captures in flight. -/
def State.holdSets (s : State) : List (List BufId) := s.captures.map Capture.holdSet

theorem State.waitsLawful_iff (s : State) : s.WaitsLawful ↔
    (∀ l ∈ s.holdSets, l.Nodup ∧ ∀ b ∈ l, (s.buffer b).state = .closed) ∧
    ∀ b, (s.buffer b).state = .closed → (s.buffer b).waitCount = s.holdSets.countP (·.contains b) := by
  constructor
  · refine fun h => ⟨fun l hl => ?_, fun b hb => ?_⟩
    · obtain ⟨c, hc, rfl⟩ := List.mem_map.1 hl
      exact ⟨h.nodup c hc, h.closed c hc⟩
    · rw [h.count b hb, State.holdSets, List.countP_map]
      rfl
  · refine fun ⟨sets, count⟩ => ⟨fun c hc => (sets _ (List.mem_map_of_mem hc)).2, fun c hc => (sets _ (List.mem_map_of_mem hc)).1,
      fun b hb => ?_⟩
    rw [count b hb, State.holdSets, List.countP_map]
    rfl

namespace State.WaitsLawful

variable {s t : State}

/-- The law reads the buffers' states, the CLOSED buffers' wait counts and the hold sets. -/
theorem congr (h : s.WaitsLawful) (sets : t.holdSets = s.holdSets)
    (closed : ∀ b, (t.buffer b).state = .closed ↔ (s.buffer b).state = .closed)
    (count : ∀ b, (s.buffer b).state = .closed → (t.buffer b).waitCount = (s.buffer b).waitCount) : t.WaitsLawful := by
  rw [State.waitsLawful_iff] at h ⊢
  rw [sets]
  exact ⟨fun l hl => ⟨(h.1 l hl).1, fun b hb => (closed b).2 ((h.1 l hl).2 b hb)⟩,
    fun b hb => (count b ((closed b).1 hb)).trans (h.2 b ((closed b).1 hb))⟩

theorem writes (h : s.WaitsLawful) {fs : List Field} (w : s.Writes fs t) (p : Field.pool ∉ fs := by decide)
    (c : Field.captures ∉ fs := by decide) : t.WaitsLawful := by
  have buffer : ∀ b, t.buffer b = s.buffer b := fun b => by rw [State.buffer, w.pool p]; rfl
  exact h.congr (by rw [State.holdSets, w.captures c]; rfl) (fun b => by rw [buffer]) fun b _ => by rw [buffer]

/-- Writing a buffer that is not CLOSED, and does not become it. -/
theorem unclosed (h : s.WaitsLawful) {b : BufId} (sets : t.holdSets = s.holdSets) (was : (s.buffer b).state ≠ .closed)
    (is : (t.buffer b).state ≠ .closed) (others : ∀ c, c ≠ b → t.buffer c = s.buffer c) : t.WaitsLawful := by
  refine h.congr sets (fun c => ?_) fun c hc => ?_
  · by_cases e : c = b
    · subst e; simp [was, is]
    · rw [others c e]
  · rw [others c fun e => was (e ▸ hc)]

theorem closeBuffer (h : s.WaitsLawful) {b : BufId} (g : (s.buffer b).state = .gathering) : (s.closeBuffer b).WaitsLawful := by
  have unheld : ∀ c ∈ s.captures, b ∉ c.holdSet := fun c hc hb => by
    have closed := h.closed c hc b hb
    rw [g] at closed
    cases closed
  have captures : ∀ c ∈ (s.closeBuffer b).captures, ∃ d ∈ s.captures, c.holdSet =
      if d.ofRecord (s.buffer b).region (s.buffer b).record then d.holdSet ++ [b] else d.holdSet := fun c hc => by
    obtain ⟨d, hd, rfl⟩ := List.mem_map.1 hc
    refine ⟨d, hd, ?_⟩
    split <;> rfl
  have state : ∀ c, (s.buffer c).state = .closed ∨ c = b → ((s.closeBuffer b).buffer c).state = .closed := fun c hc => by
    rw [s.closeBuffer_buffer]
    split
    · rfl
    · next e => exact hc.resolve_right e
  refine ⟨fun c hc x hx => ?_, fun c hc => ?_, fun x hx => ?_⟩
  · obtain ⟨d, hd, e⟩ := captures c hc
    rw [e] at hx
    split at hx
    · obtain m | m := List.mem_append.1 hx
      · exact state x (.inl (h.closed d hd x m))
      · exact state x (.inr (List.mem_singleton.1 m))
    · exact state x (.inl (h.closed d hd x hx))
  · obtain ⟨d, hd, e⟩ := captures c hc
    rw [e]
    split
    · exact List.nodup_append.2 ⟨h.nodup d hd, List.nodup_singleton b, fun x hx y hy e =>
        unheld d hd ((e.trans (List.mem_singleton.1 hy)) ▸ hx)⟩
    · exact h.nodup d hd
  · show _ = List.countP _ (s.captures.map _)
    rw [List.countP_map, s.closeBuffer_buffer]
    rw [s.closeBuffer_buffer] at hx
    split
    · next e =>
      subst e
      show (s.captures.filter fun c => c.ofRecord (s.buffer x).region (s.buffer x).record).length = _
      rw [← List.countP_eq_length_filter]
      refine List.countP_congr fun c hc => ?_
      by_cases o : c.ofRecord (s.buffer x).region (s.buffer x).record = true
      · simp [o]
      · simp [o, unheld c hc]
    · next e =>
      rw [if_neg e] at hx
      rw [h.count x hx]
      refine List.countP_congr fun c _ => ?_
      by_cases o : c.ofRecord (s.buffer b).region (s.buffer b).record = true
      · simp [o, e]
      · simp [o]

/-- A buffer with no wait left is in no hold set. -/
theorem not_mem_of_waitCount (h : s.WaitsLawful) {b : BufId} (closed : (s.buffer b).state = .closed) (zero : (s.buffer b).waitCount = 0) :
    ∀ c ∈ s.captures, b ∉ c.holdSet := fun c hc hb => by
  have none := (h.count b closed).symm.trans zero
  rw [List.countP_eq_zero] at none
  exact none c hc (by simpa using hb)

theorem takeCommit (h : s.WaitsLawful) : s.takeCommit.WaitsLawful := by
  obtain e | ⟨b, job, -, eligible, rfl, -, e⟩ := s.takeCommit_cases
  · rw [e]; exact h
  · obtain ⟨-, closed, zero⟩ := s.firstEligible_eq_some eligible
    have buffer : ∀ c, s.takeCommit.buffer c =
        if c = job.buffer then { s.buffer job.buffer with state := .committing } else s.buffer c := fun c => by
      rw [e]
      exact s.setBuffer_buffer ..
    have captures : s.takeCommit.captures = s.captures := s.takeCommit_writes.captures
    have free := h.not_mem_of_waitCount closed zero
    generalize s.takeCommit = t at buffer captures
    refine ⟨fun c hc x hx => ?_, fun c hc => h.nodup c (captures ▸ hc), fun x hx => ?_⟩
    · rw [captures] at hc
      rw [buffer, if_neg fun e : x = job.buffer => free c hc (e ▸ hx)]
      exact h.closed c hc x hx
    · rw [buffer] at hx ⊢
      rw [captures]
      split at hx
      · cases hx
      · next ne => rw [if_neg ne]; exact h.count x hx

end State.WaitsLawful

/-- Lowering the wait counts of a hold set lowers each of its buffers' by one (05 R97). -/
theorem State.lowerWaits_buffer {l : List BufId} (s : State) (nodup : l.Nodup) (b : BufId) : (s.lowerWaits l).buffer b =
    { s.buffer b with waitCount := if b ∈ l then (s.buffer b).waitCount - 1 else (s.buffer b).waitCount } := by
  induction l generalizing s with
  | nil => rfl
  | cons c l ih =>
    rw [List.nodup_cons] at nodup
    show (State.lowerWaits _ l).buffer b = _
    rw [ih _ nodup.2, State.setBuffer_buffer]
    by_cases e : b = c
    · subst e; simp [nodup.1]
    · simp [e]

/-- A capture that loses its view keeps its hold set (05 R103). -/
theorem State.unview_holdSets (s : State) (p : Port) (v : ViewIx) :
    (s.captures.map fun x => if x.fills p v then { x with view := none } else x).map Capture.holdSet =
      s.captures.map Capture.holdSet := by
  rw [List.map_map]
  refine List.map_congr_left fun x _ => ?_
  show Capture.holdSet (if x.fills p v then { x with view := none } else x) = x.holdSet
  split <;> rfl

namespace State.WaitsLawful

variable {s t : State}

theorem endCapture (h : s.WaitsLawful) {c : Capture} (mem : c ∈ s.captures) : (s.endCapture c).WaitsLawful := by
  have buffer : ∀ b, (s.endCapture c).buffer b =
      { s.buffer b with waitCount := if b ∈ c.holdSet then (s.buffer b).waitCount - 1 else (s.buffer b).waitCount } :=
    fun b => (s.setCaptures (s.captures.erase c)).lowerWaits_buffer (h.nodup c mem) b
  have captures : (s.endCapture c).captures = s.captures.erase c :=
    (State.lowerWaits_writes (s.setCaptures (s.captures.erase c)) c.holdSet).captures
  generalize s.endCapture c = t at buffer captures
  refine ⟨fun d hd b hb => ?_, fun d hd => ?_, fun b hb => ?_⟩
  · rw [captures] at hd
    rw [buffer]
    exact h.closed d (List.mem_of_mem_erase hd) b hb
  · rw [captures] at hd
    exact h.nodup d (List.mem_of_mem_erase hd)
  · rw [buffer] at hb ⊢
    rw [captures, List.countP_erase]
    show (if _ then _ else _) = _
    rw [h.count b hb]
    by_cases e : b ∈ c.holdSet
    · simp [e, mem]
    · simp [e]

theorem discardUpdates (h : s.WaitsLawful) : s.discardUpdates.WaitsLawful := by
  have captures : ∀ c ∈ s.discardUpdates.captures, c.holdSet = [] := fun c hc => by
    obtain ⟨d, hd, rfl⟩ := List.mem_map.1 hc
    refine List.filter_eq_nil_iff.2 fun b hb => ?_
    simp [h.closed d hd b hb]
  refine ⟨fun c hc b hb => ?_, fun c hc => ?_, fun b hb => ?_⟩
  · rw [captures c hc] at hb
    cases hb
  · rw [captures c hc]
    exact List.nodup_nil
  · rw [State.discardUpdates_buffer] at hb
    cases e : (s.buffer b).state <;> simp [e] at hb

theorem setCaptures (h : s.WaitsLawful) {l : List Capture} (sets : l.map Capture.holdSet = s.captures.map Capture.holdSet) :
    (s.setCaptures l).WaitsLawful := h.congr sets (fun _ => .rfl) fun _ _ => rfl

theorem capture (h : s.WaitsLawful) {c : Capture} (empty : c.holdSet = []) : (s.setCaptures (s.captures ++ [c])).WaitsLawful := by
  rw [State.waitsLawful_iff] at h ⊢
  have sets : (s.setCaptures (s.captures ++ [c])).holdSets = s.holdSets ++ [[]] := by
    simp [State.holdSets, empty]
  rw [sets]
  refine ⟨fun l hl => ?_, fun b hb => ?_⟩
  · obtain m | m := List.mem_append.1 hl
    · exact h.1 l m
    · rw [List.mem_singleton.1 m]
      exact ⟨List.nodup_nil, nofun⟩
  · rw [List.countP_append]
    exact (h.2 b hb).trans (by simp)

theorem releaseView (h : s.WaitsLawful) (p : Port) (v : ViewIx) : (s.releaseView p v).WaitsLawful := by
  have freed : (s.freeView p v).WaitsLawful := h.writes (s.freeView_writes p v)
  unfold State.releaseView
  dsimp only
  split
  · exact freed
  · next c e =>
    have mem : c ∈ s.captures := List.mem_of_find?_eq_some e
    split
    · exact freed.endCapture mem
    · exact (freed.writes (State.setCaptureRequest_writes _ none)).endCapture mem
    · exact freed.setCaptures (s.unview_holdSets p v)

theorem openView (h : s.WaitsLawful) (p : Port) (v : ViewIx) (r : RegionId) (k : Nat) : (s.openView p v r k).WaitsLawful := by
  have opened : ∀ x, (s.setViews p x).WaitsLawful := fun x => h.writes (s.setViews_writes p x)
  unfold State.openView
  dsimp only
  split
  · exact opened _
  · exact (opened _).capture rfl

theorem act {E F G : Prop} (i : E) (h : s.WaitsLawful) (pool : s.PoolLawful) (a : Act E F G s t) : t.WaitsLawful := by
  have open' : ∀ {u : State} {p : Port} {x : Spot} {b : BufId}, u.WaitsLawful → (u.buffer b).state = .free →
      (u.openBuffer p x b).WaitsLawful := fun {u p x b} h f =>
    h.unclosed (b := b) rfl (by rw [f]; nofun) (by rw [State.openBuffer_gatherings]; nofun)
      fun c ne => by rw [State.openBuffer_buffer, if_neg ne]
  have holds : ∀ l, (s.setPool { s.pool with holds := l }).WaitsLawful := fun l => h.congr rfl (fun _ => .rfl) fun _ _ => rfl
  cases a with
  | other w => exact h.writes w
  | mark b =>
    refine h.congr rfl (fun c => ?_) fun c _ => ?_ <;> rw [State.setBuffer_buffer] <;> split
    · next e => rw [e]
    · rfl
    · next e => rw [e]
    · rfl
  | stage b k ws g =>
    refine h.unclosed (b := b) rfl (by rw [g]; nofun) ?_ fun c ne => by rw [State.setBuffer_buffer, if_neg ne]
    rw [State.setBuffer_buffer, if_pos rfl, (stageWords_fields ..).1, g]
    nofun
  | close b g => exact h.closeBuffer (g i)
  | free b g =>
    refine h.unclosed (b := b) rfl (by rw [g i]; nofun) ?_ fun c ne => by rw [State.freeGathering_buffer, if_neg ne]
    rw [State.freeGathering_buffer, if_pos rfl]
    nofun
  | opening p x b f _ _ _ _ => exact open' h (s.freeBuffer_eq_some f)
  | openHeld y b f _ _ => exact open' (holds (s.pool.holds.erase y)) (s.freeBuffer_eq_some f)
  | hold p x ws r rest _ _ _ _ _ _ _ => exact (holds _).writes (State.awaitPiece_writes ..)
  | dropHold y => exact holds _
  | dropHolds p => exact holds _
  | discard => exact h.discardUpdates
  | take => exact h.takeCommit
  | commit job _ w =>
    have buffer : ∀ c, ((s.freeCommitted job.buffer).setEngine .idle).buffer c =
        if c = job.buffer then { s.buffer job.buffer with state := .free, waitCount := 0 } else s.buffer c :=
      fun c => s.freeCommitted_buffer ..
    have committing : (s.buffer job.buffer).state = .committing := (pool.engine_iff _).2 (by rw [w]; rfl)
    refine h.unclosed (b := job.buffer) rfl (by rw [committing]; nofun) ?_ fun c ne => by rw [buffer, if_neg ne]
    rw [buffer, if_pos rfl]
    nofun
  | engine e _ _ => exact h.writes (s.setEngine_writes e)
  | freeView p v _ => exact h.writes (s.freeView_writes p v)
  | withdraw p v c e _ => exact (h.writes (s.freeView_writes p v)).endCapture (List.mem_of_find?_eq_some e)
  | cancel p v c e _ =>
    exact (h.writes ((s.freeView_writes p v).seq (State.setCaptureRequest_writes _ none))).endCapture (List.mem_of_find?_eq_some e)
  | unview p v => exact (h.writes (s.freeView_writes p v)).setCaptures (s.unview_holdSets p v)
  | openView p v r k _ _ _ => exact h.openView p v r k
  | touch p v _ => exact h.writes (s.setViews_writes ..)
  | endCapture c _ mem _ => exact h.endCapture mem
  | fill c v x _ mem _ _ _ _ _ => exact (h.endCapture mem).writes (State.setView_writes ..)
  | fail c v _ mem _ => exact (h.endCapture mem).releaseView c.port v
  | relabel l _ keys =>
    have sets := congrArg (List.map Prod.fst) keys
    rw [List.map_map, List.map_map] at sets
    exact h.setCaptures sets
  | serve p v _ _ _ => exact h.writes (s.setService_writes p v)
  | request p q n x w _ _ _ => exact h.writes ((s.setPlainRequest_writes ..).seq (State.awaitPiece_writes ..))
  | respond p r rest _ _ => exact h.writes (s.respond_writes ..)
  | endHeld p n st _ _ => exact h.writes (s.finishPiece_writes ..)
  | memory _ w => exact h.writes w
  | loose _ _ w => exact h.writes w

end State.WaitsLawful

theorem State.hardReset_waitsLawful (s : State) : s.hardReset.WaitsLawful := by
  refine ⟨nofun, nofun, fun b hb => ?_⟩
  rw [s.hardReset_buffer] at hb
  cases hb

theorem State.waitsLawful_kept : Kept fun s => s.PoolLawful ∧ s.WaitsLawful :=
  .of_acts (E := True) (fun _ h _ => h.1) (fun _ _ a ⟨pool, waits⟩ => ⟨pool.act trivial a, waits.act trivial pool a⟩)
    (fun _ _ w ⟨pool, waits⟩ => ⟨pool.writes w, waits.writes w⟩) fun s => ⟨s.hardReset_poolLawful, s.hardReset_waitsLawful⟩

/-- Settles O54: every part of a step is acts on the pool, the captures and the engine, and each act keeps both laws. -/
theorem everyStepKeepsThePoolLawful : Obligations.EveryStepKeepsThePoolLawful :=
  ⟨fun _ _ pool e => State.poolLawful_kept.step e pool,
    fun _ _ pool waits e => (State.waitsLawful_kept.step e ⟨pool, waits⟩).2⟩

end Sys2Proof.Machine

/-! SUPPORT. The region table through the parts of a step (01): what else happens leaves the entries and the region command in
execution alone, and a completion moves its own region. -/

namespace Sys2Proof.Machine

/-- The long command in execution, but for the counts that it only reports (08 R145). -/
def Executing.work : Executing → Executing
  | .activate r n => .activate r n
  | .retire r _ _ _ => .retire r 0 0 0
  | .flushPort _ _ _ => .flushPort 0 0 false
  | .restart _ _ _ _ _ _ => .restart 0 0 0 0 false false

/-- The long command the link executes, if it does, but for its counts. -/
def LinkState.work : LinkState → Option Executing
  | .executing e => some e.work
  | .idle => none
  | .receiving _ _ => none
  | .result _ _ => none

theorem LinkState.work_activate {x : LinkState} {r : RegionId} {n : Nat} : x.work = some (.activate r n) ↔ x = .executing (.activate r n) := by
  cases x with
  | executing e => cases e <;> simp [LinkState.work, Executing.work]
  | idle | receiving | result => simp [LinkState.work]

theorem LinkState.work_retire {x : LinkState} {r : RegionId} :
    x.work = some (.retire r 0 0 0) ↔ ∃ a c v, x = .executing (.retire r a c v) := by
  cases x with
  | executing e => cases e <;> simp [LinkState.work, Executing.work]
  | idle | receiving | result => simp [LinkState.work]

theorem LinkState.Unexecuting.work {x : LinkState} (h : x.Unexecuting) : x.work = none := by
  cases x with
  | executing e => exact absurd rfl (h e)
  | idle | receiving | result => rfl

/-- The region table is as it was, and so is the long command in execution. -/
structure State.Rests (s t : State) : Prop where
  regions : t.regions = s.regions
  work : t.link.state.work = s.link.state.work

namespace State.Rests

variable {s t u : State}

protected theorem refl (s : State) : s.Rests s := ⟨rfl, rfl⟩

protected theorem trans (h : s.Rests t) (k : t.Rests u) : s.Rests u := ⟨k.regions.trans h.regions, k.work.trans h.work⟩

theorem of_writes {fs : List Field} (h : s.Writes fs t) (r : Field.regions ∉ fs := by decide) (l : Field.link ∉ fs := by decide) :
    s.Rests t := ⟨h.regions r, by rw [h.link l]⟩

theorem of_linkOnly (h : s.LinkOnly t) : s.Rests t := by
  refine ⟨h.writes.regions, ?_⟩
  obtain e | ⟨hs, ht⟩ := h.state
  · rw [e]
  · rw [hs.work, ht.work]

end State.Rests

section
variable (s : State)

theorem State.mapExecuting_rests (f : Executing → Executing) (hf : ∀ e, (f e).work = e.work) : s.Rests (s.mapExecuting f) := by
  refine ⟨(s.mapExecuting_writes f).regions, ?_⟩
  unfold State.mapExecuting
  cases l : s.link.state with
  | executing e => exact congrArg some (hf e)
  | idle | receiving | result => exact congrArg LinkState.work l

theorem Executing.afterCommit_work (q : RegionId) (e : Executing) : (e.afterCommit q).work = e.work := by
  cases e with
  | retire a n c v => unfold Executing.afterCommit; dsimp only; split <;> rfl
  | activate | flushPort | restart => rfl

theorem Executing.afterCapture_work (e : Executing) : e.afterCapture.work = e.work := by
  cases e <;> rfl

theorem State.completeCommit_rests (job : CommitJob) : s.Rests (s.completeCommit job) := by
  have freed : s.Rests (((s.settledCommit job).freeCommitted job.buffer).mapExecuting fun e =>
      e.afterCommit (s.buffer job.buffer).region) :=
    .trans (.of_writes ((s.settledCommit_writes job).seq (State.freeCommitted_writes ..)))
      (State.mapExecuting_rests _ _ (Executing.afterCommit_work _))
  rw [s.completeCommit_eq]
  exact freed.trans (.of_writes (((State.setEngine_writes ..).seq (State.examineHolds_writes (s.freedCommit job))).seq
    (State.takeCommit_writes _)))

theorem State.endRead_rests : s.Rests s.endRead := by
  unfold State.endRead
  split
  · exact .refl s
  · refine State.Rests.trans ?_ (State.mapExecuting_rests _ _ Executing.afterCapture_work)
    split
    · exact .of_writes (s.faultCapture_writes _)
    · exact .of_writes (s.completeCapture_writes _)

theorem State.endTransaction_rests (q : Requester) (as : List Answer) (d : Bool) : s.Rests (s.endTransaction q as d) := by
  have idle := State.Rests.of_writes s.idlePort_writes
  obtain e | ⟨p, -, -, e⟩ | ⟨job, -, -, -, e⟩ | ⟨-, -, e⟩ := s.endTransaction_cases q as d <;> rw [e]
  · exact idle
  · exact idle.trans (.of_writes (State.endPlain_writes ..))
  · exact idle.trans (State.completeCommit_rests ..)
  · exact idle.trans (State.endRead_rests _)

theorem State.takeAnswers_rests (t : Transaction) (f : List Answer → List Answer) : s.Rests (s.takeAnswers t f) := by
  have recorded := State.Rests.of_writes (s.recordAnswers_writes t f)
  rw [State.takeAnswers_eq]
  split
  · exact recorded.trans (State.endTransaction_rests ..)
  · exact recorded

/-- What happens without a command leaves the regions and the command in execution, or is the command's completion. -/
theorem Quiet.rests {s t : State} (q : Quiet s t) : s.Rests t ∨ t = s.completeLong := by
  cases q with
  | choose n => exact .inl (.of_writes (s.setChoices_writes n))
  | advance p _ => exact .inl (.of_writes (s.advance_writes p))
  | complete => exact .inr rfl
  | refuse h _ => exact .inl (.of_writes (s.refuseHold_writes ..))
  | expireBuffer b _ => exact .inl (.of_writes (s.expireBuffer_writes b))
  | expireView p v _ => exact .inl (.of_writes (s.expireView_writes p v))
  | answers tr f o => exact .inl (s.takeAnswers_rests tr f)

end

/-! ### Completions in the course of a step (01 R8, R12) -/

/-- A region moved to another state, and no region command in execution any more. -/
structure State.Completed (s t : State) (r : RegionId) (x : RegionState) : Prop where
  regions : t.regions = (s.setRegionState r x).regions
  work : ∀ e, t.link.state.work = some e → (∀ q n, e ≠ .activate q n) ∧ ∀ q, e ≠ .retire q 0 0 0

/-- What happens of itself to the region table: nothing, the end of the ACTIVATE in execution, or that of the RETIRE. -/
inductive RegionMoves (s t : State) : Prop
  | rests : s.Rests t → RegionMoves s t
  | idle : t.regions = s.regions →
      (∀ e, t.link.state.work = some e → (∀ q n, e ≠ .activate q n) ∧ ∀ q, e ≠ .retire q 0 0 0) → RegionMoves s t
  | activated (r : RegionId) (n : Nat) : s.link.state.work = some (.activate r n) → (s.definition r).recordCount ≤ n →
      s.Completed t r .active → RegionMoves s t
  | retired (r : RegionId) : s.link.state.work = some (.retire r 0 0 0) → s.Completed t r .defined → RegionMoves s t

theorem State.completeLong_moves (s : State) : RegionMoves s s.completeLong := by
  obtain h | ⟨r, n, e, le, h⟩ | ⟨r, a, c, v, e, -, h⟩ | ⟨a, v, e, h⟩ | ⟨g, c, v, f, e, h⟩ := s.completeLong_cases <;> rw [h]
  · exact .rests (.refl s)
  · exact .activated r n (LinkState.work_activate.2 e) le ⟨rfl, nofun⟩
  · exact .retired r (LinkState.work_retire.2 ⟨a, c, v, e⟩) ⟨rfl, nofun⟩
  · exact .idle rfl nofun
  · exact .idle rfl nofun

theorem RegionMoves.trans {s t u : State} (h : RegionMoves s t) (k : RegionMoves t u) : RegionMoves s u := by
  have after : ∀ {v w : State}, (∀ e, v.link.state.work = some e → (∀ q n, e ≠ .activate q n) ∧ ∀ q, e ≠ .retire q 0 0 0) →
      RegionMoves v w → w.regions = v.regions ∧
        ∀ e, w.link.state.work = some e → (∀ q n, e ≠ .activate q n) ∧ ∀ q, e ≠ .retire q 0 0 0 := fun none k => by
    cases k with
    | rests k => exact ⟨k.regions, fun e l => none e (k.work ▸ l)⟩
    | idle r w => exact ⟨r, w⟩
    | activated r n l _ _ => exact absurd rfl ((none _ l).1 r n)
    | retired r l _ => exact absurd rfl ((none _ l).2 r)
  cases h with
  | rests h =>
    cases k with
    | rests k => exact .rests (h.trans k)
    | idle r w => exact .idle (r.trans h.regions) w
    | activated r n l le c =>
      have def' : t.definition r = s.definition r := by rw [State.definition, State.region, h.regions]; rfl
      exact .activated r n (h.work ▸ l) (def' ▸ le) ⟨by rw [c.regions, State.setRegionState, State.setRegionState, State.setRegion,
        State.setRegion, State.region, State.region, h.regions]; rfl, c.work⟩
    | retired r l c =>
      exact .retired r (h.work ▸ l) ⟨by rw [c.regions, State.setRegionState, State.setRegionState, State.setRegion,
        State.setRegion, State.region, State.region, h.regions]; rfl, c.work⟩
  | idle r w =>
    obtain ⟨r', w'⟩ := after w k
    exact .idle (r'.trans r) w'
  | activated r n l le c =>
    obtain ⟨r', w'⟩ := after c.work k
    exact .activated r n l le ⟨r'.trans c.regions, w'⟩
  | retired r l c =>
    obtain ⟨r', w'⟩ := after c.work k
    exact .retired r l ⟨r'.trans c.regions, w'⟩

theorem Quiet.moves {s t : State} (q : Quiet s t) : RegionMoves s t := by
  obtain r | rfl := q.rests
  · exact .rests r
  · exact s.completeLong_moves

theorem Quiets.moves {s t : State} (q : Quiets s t) : RegionMoves s t :=
  q.relates (R := RegionMoves) (fun s => .rests (.refl s)) (fun _ _ _ => .trans) fun _ _ => Quiet.moves

/-! ### The region table's laws (01 R7, R13, R15) -/

theorem rangesMeet_iff {a n b m : Nat} : rangesMeet a n b m = true ↔ ∃ k, (a ≤ k ∧ k < a + n) ∧ (b ≤ k ∧ k < b + m) := by
  unfold rangesMeet
  simp only [Bool.and_eq_true, decide_eq_true_eq, bne_iff_ne, ne_eq]
  constructor
  · rintro ⟨⟨⟨h, k⟩, hn⟩, hm⟩
    exact ⟨max a b, by omega⟩
  · rintro ⟨k, h⟩
    omega

/-- ACTIVATE's comparison finds what R7 forbids (01 R4, R7). -/
theorem overlaps_iff {d e : Definition} : overlaps d e = true ↔ shareAddress d e ∨ shareEntry d e := by
  unfold overlaps
  rw [Bool.or_eq_true, rangesMeet_iff, rangesMeet_iff]
  rfl

theorem shareAddress_comm {d e : Definition} (h : shareAddress d e) : shareAddress e d := by
  obtain ⟨a, hd, he⟩ := h
  exact ⟨a, he, hd⟩

theorem shareEntry_comm {d e : Definition} (h : shareEntry d e) : shareEntry e d := by
  obtain ⟨a, hd, he⟩ := h
  exact ⟨a, he, hd⟩

theorem mem_allRegions (r : RegionId) : r ∈ allRegions := by revert r; decide

/-- A region in no conflict shares nothing with any other in ACTIVATING, ACTIVE or DRAINING (01 R7). -/
theorem State.conflicts_eq_false {s : State} {r : RegionId} (h : s.conflicts r = false) {q : RegionId} (ne : q ≠ r)
    (own : (s.region q).state.owning = true) :
    ¬ shareAddress (s.definition r) (s.definition q) ∧ ¬ shareEntry (s.definition r) (s.definition q) := by
  unfold State.conflicts at h
  rw [List.any_eq_false] at h
  have none := h q (mem_allRegions q)
  rw [Bool.and_eq_true, Bool.and_eq_true, bne_iff_ne, overlaps_iff] at none
  exact not_or.1 fun o => none ⟨⟨ne, own⟩, o⟩

theorem State.setRegionState_state (s : State) (r q : RegionId) (x : RegionState) :
    ((s.setRegionState r x).region q).state = if q = r then x else (s.region q).state := by
  unfold State.setRegionState
  rw [State.setRegion_region]
  split <;> rfl

namespace State.RegionsLawful

variable {s t u : State}

/-- The laws read the region table and the region command in execution. -/
theorem rests (h : s.RegionsLawful) (k : s.Rests t) : t.RegionsLawful := by
  have region : t.region = s.region := by unfold State.region; rw [k.regions]
  have definition : t.definition = s.definition := by unfold State.definition; rw [region]
  refine ⟨?_, ?_, ?_, fun r n e => ?_, fun r a c v e => ?_⟩
  · rw [region, definition]; exact h.blank
  · rw [region, definition]; exact h.legal
  · rw [region, definition]; exact h.apart
  · rw [region]
    exact h.activating r n (LinkState.work_activate.1 (k.work ▸ LinkState.work_activate.2 e))
  · rw [region]
    obtain ⟨a, c, v, e⟩ := LinkState.work_retire.1 (k.work ▸ LinkState.work_retire.2 ⟨a, c, v, e⟩)
    exact h.draining r a c v e

/-- A region that is not EMPTY moves to another state that is not EMPTY, and shares nothing if it comes to own its span. -/
theorem setState (h : s.RegionsLawful) {r : RegionId} {x : RegionState} (was : (s.region r).state ≠ .empty) (is : x ≠ .empty)
    (apart : x.owning = true → (s.region r).state.owning = true ∨ s.conflicts r = false)
    (regions : t.regions = (s.setRegionState r x).regions)
    (activating : ∀ q n, t.link.state = .executing (.activate q n) → q = r ∧ x = .activating)
    (draining : ∀ q a c v, t.link.state = .executing (.retire q a c v) → q = r ∧ x = .draining) : t.RegionsLawful := by
  have region : t.region = (s.setRegionState r x).region := by unfold State.region; rw [regions]
  have definition : t.definition = s.definition := by
    funext q
    unfold State.definition
    rw [region]
    exact s.setRegionState_definition r q x
  have state : ∀ q, (t.region q).state = if q = r then x else (s.region q).state := fun q => by
    rw [region]; exact s.setRegionState_state r q x
  have free : x.owning = true → ∀ q, q ≠ r → (s.region q).state.owning = true →
      ¬ shareAddress (s.definition r) (s.definition q) ∧ ¬ shareEntry (s.definition r) (s.definition q) := fun own q ne ownq => by
    obtain o | o := apart own
    · exact h.apart r q ne.symm o ownq
    · exact s.conflicts_eq_false o ne ownq
  refine ⟨fun q => ?_, fun q => ?_, fun p q ne => ?_, fun q n e => ?_, fun q a c v e => ?_⟩
  · rw [state, definition]
    split
    · exact fun e => absurd e is
    · exact h.blank q
  · rw [state, definition]
    split
    · next e => exact fun _ => e ▸ h.legal r was
    · exact h.legal q
  · rw [state, state, definition]
    by_cases ep : p = r <;> by_cases eq : q = r
    · exact absurd (ep.trans eq.symm) ne
    · subst ep
      rw [if_pos rfl, if_neg eq]
      exact fun own ownq => free own q eq ownq
    · subst eq
      rw [if_neg ep, if_pos rfl]
      exact fun ownp own => ⟨fun k => (free own p ep ownp).1 (shareAddress_comm k), fun k => (free own p ep ownp).2 (shareEntry_comm k)⟩
    · rw [if_neg ep, if_neg eq]
      exact h.apart p q ne
  · obtain ⟨rfl, rfl⟩ := activating q n e
    rw [state, if_pos rfl]
  · obtain ⟨rfl, rfl⟩ := draining q a c v e
    rw [state, if_pos rfl]

/-- With no region command in execution, a region that does not own its span takes another definition, or none. -/
theorem setRegion (h : s.RegionsLawful) {r : RegionId} {x : Region}
    (is : x.state.owning = false) (blank : x.state = .empty → x.definition = .emptyValues) (legal : x.state ≠ .empty → x.definition.Legal)
    (regions : t.regions = (s.setRegion r x).regions) (un : t.link.state.Unexecuting) : t.RegionsLawful := by
  have region : ∀ q, t.region q = if q = r then x else s.region q := fun q => by
    rw [State.region, regions]; exact s.setRegion_region r q x
  have definition : ∀ q, t.definition q = if q = r then x.definition else s.definition q := fun q => by
    rw [State.definition, region]; split <;> rfl
  refine ⟨fun q => ?_, fun q => ?_, fun p q ne => ?_, fun q n e => absurd e (un _), fun q a c v e => absurd e (un _)⟩
  · rw [region, definition]
    split
    · exact blank
    · exact h.blank q
  · rw [region, definition]
    split
    · exact legal
    · exact h.legal q
  · rw [region, region, definition, definition]
    by_cases ep : p = r <;> by_cases eq : q = r
    · exact absurd (ep.trans eq.symm) ne
    · rw [if_pos ep, is]; exact nofun
    · rw [if_pos eq, is]; exact fun _ => nofun
    · rw [if_neg ep, if_neg eq, if_neg ep, if_neg eq]
      exact h.apart p q ne

theorem moves (h : s.RegionsLawful) (k : RegionMoves s t) : t.RegionsLawful := by
  cases k with
  | rests k => exact h.rests k
  | idle r w =>
    refine ⟨?_, ?_, ?_, fun q n e => absurd rfl ((w _ (LinkState.work_activate.2 e)).1 q n),
      fun q a c v e => absurd rfl ((w _ (LinkState.work_retire.2 ⟨a, c, v, e⟩)).2 q)⟩
    all_goals unfold State.definition State.region; rw [r]
    · exact h.blank
    · exact h.legal
    · exact h.apart
  | activated r n l _ c =>
    have was := h.activating r n (LinkState.work_activate.1 l)
    exact h.setState (x := .active) (by rw [was]; nofun) nofun (fun _ => .inl (by rw [was]; rfl)) c.regions
      (fun q n e => absurd rfl ((c.work _ (LinkState.work_activate.2 e)).1 q n))
      fun q a d v e => absurd rfl ((c.work _ (LinkState.work_retire.2 ⟨a, d, v, e⟩)).2 q)
  | retired r l c =>
    obtain ⟨a, d, v, e⟩ := LinkState.work_retire.1 l
    have was := h.draining r a d v e
    exact h.setState (x := .defined) (by rw [was]; nofun) nofun nofun c.regions
      (fun q n e => absurd rfl ((c.work _ (LinkState.work_activate.2 e)).1 q n))
      fun q a d v e => absurd rfl ((c.work _ (LinkState.work_retire.2 ⟨a, d, v, e⟩)).2 q)

end State.RegionsLawful

/-! ### Region commands (01 R1 to R14) -/

/-- A region command's effect on the region table, with the link as it stands after the command's frame. -/
inductive RegionTaken (s t : State) : Prop
  | rests : t.regions = s.regions → (∀ e, t.link.state.work = some e → (∀ q n, e ≠ .activate q n) ∧ ∀ q, e ≠ .retire q 0 0 0) →
      RegionTaken s t
  | define (r : RegionId) (d : Definition) : (s.region r).state = .empty ∨ (s.region r).state = .defined → d.Legal →
      t.regions = (s.setRegion r ⟨.defined, d⟩).regions → t.link.state.Unexecuting → RegionTaken s t
  | activate (r : RegionId) : (s.region r).state = .defined → s.conflicts r = false →
      t.regions = (s.setRegionState r .activating).regions → t.link.state = .executing (.activate r 0) → RegionTaken s t
  | retire (r : RegionId) (a c v : Nat) : (s.region r).state = .active → t.regions = (s.setRegionState r .draining).regions →
      t.link.state = .executing (.retire r a c v) → RegionTaken s t
  | clear (r : RegionId) : (s.region r).state = .defined → t.regions = (s.setRegion r .emptyEntry).regions →
      t.link.state.Unexecuting → RegionTaken s t

theorem State.drained_writes (s : State) (r : RegionId) (m : DrainMode) :
    (s.setRegionState r .draining).Writes [.views, .captures, .pool, .capture, .ports, .events] (s.drained r m) := by
  have unviewed : (s.setRegionState r .draining).Writes [.views, .captures, .pool, .capture, .ports, .events] (s.unviewed r) :=
    ((State.releaseAll_writes ..).seq (State.giveBackAwaiting_writes ..)).mono
  refine State.Writes.trans ?_ (State.Writes.foldl (fun s h => (s.refuseHold_writes .retired h).mono) _ _)
  cases m with
  | abandon => exact unviewed.trans (State.Writes.foldl (fun s b => (s.abandonBuffer_writes .retire b).mono) _ _)
  | close => exact unviewed.trans (State.Writes.foldl (fun s b => (s.closeBuffer_writes b).mono) _ _)

theorem Carried.regionTaken {s t : State} {x : Reply} (c : Carried s t x) : RegionTaken s (t.conclude x) := by
  have regions : (t.conclude x).regions = t.regions := (t.conclude_writes x).regions
  cases c with
  | done d => exact .rests rfl nofun
  | fail c => exact .rests rfl nofun
  | define r d allowed legal _ => exact .define r _ allowed (definitionOf_legal legal r) regions .result
  | activate r allowed apart => exact .activate r allowed apart rfl rfl
  | retire r m allowed =>
    refine .retire r _ _ _ allowed (regions.trans ?_) rfl
    have drained : (s.setRegionState r .draining).Writes [.views, .captures, .pool, .capture, .ports, .events] (s.retireTaken r m).1 :=
      State.retireTaken_eq s r m ▸ (s.drained_writes r m).trans (State.examineHolds_writes _).mono
    exact drained.regions
  | clear r d allowed =>
    exact .clear r allowed (regions.trans (State.clearWatches_writes (s.setRegion r .emptyEntry) _).regions) .result
  | clean r k d _ _ => exact .rests rfl nofun
  | setWatch i w r d => exact .rests rfl nofun
  | clearWatch i d => exact .rests rfl nofun
  | readEvents n d => exact .rests rfl nofun
  | setMasks q a => exact .rests rfl nofun
  | flush p => exact .rests (regions.trans (s.flushTaken_writes p).regions) (by rintro e ⟨⟩; exact ⟨nofun, nofun⟩)
  | restart => exact .rests (regions.trans s.doRestart_writes.regions) (by rintro e ⟨⟩; exact ⟨nofun, nofun⟩)

/-- The transitions of 01, 1.4, with what a RETIRE that drains at once passes through left out. -/
def regionTransitions : List (RegionState × RegionState) :=
  [(.empty, .defined), (.defined, .activating), (.activating, .active), (.active, .draining), (.active, .defined),
    (.draining, .defined), (.defined, .empty)]

/-- Every entry is in the state it was in, or has moved along a transition. -/
def State.RegionsStep (s t : State) : Prop :=
  ∀ r, (t.region r).state ≠ (s.region r).state → ((s.region r).state, (t.region r).state) ∈ regionTransitions

theorem State.RegionsStep.of_regions {s t : State} (h : t.regions = s.regions) : s.RegionsStep t := fun r n => by
  unfold State.region at n
  exact absurd (by rw [h]) n

theorem State.RegionsStep.of_setState {s t : State} {r : RegionId} {x : RegionState} (h : t.regions = (s.setRegionState r x).regions)
    (m : (s.region r).state = x ∨ ((s.region r).state, x) ∈ regionTransitions) : s.RegionsStep t := fun q n => by
  have state : (t.region q).state = if q = r then x else (s.region q).state := by
    rw [State.region, h]; exact s.setRegionState_state r q x
  rw [state] at n ⊢
  split at n
  · next e =>
    subst e
    rw [if_pos rfl]
    exact m.resolve_left n.symm
  · exact absurd rfl n

theorem State.RegionsStep.of_moves {s t : State} (h : s.RegionsLawful) (k : RegionMoves s t) : s.RegionsStep t := by
  cases k with
  | rests k => exact .of_regions k.regions
  | idle r _ => exact .of_regions r
  | activated r n l _ c =>
    refine .of_setState c.regions (.inr ?_)
    rw [h.activating r n (LinkState.work_activate.1 l)]
    decide
  | retired r l c =>
    obtain ⟨a, d, v, e⟩ := LinkState.work_retire.1 l
    refine .of_setState c.regions (.inr ?_)
    rw [h.draining r a d v e]
    decide

/-- A command, and what follows it in its step: the laws stand, and the entries have moved along transitions. -/
theorem RegionTaken.lawful {s u t : State} (h : s.RegionsLawful) (c : RegionTaken s u) (k : RegionMoves u t) :
    t.RegionsLawful ∧ s.RegionsStep t := by
  have stays : u.RegionsLawful → (∀ r n, u.link.state = .executing (.activate r n) → ¬ (u.definition r).recordCount ≤ n) →
      (∀ r a c v, u.link.state ≠ .executing (.retire r a c v)) → t.regions = u.regions ∧ t.RegionsLawful := fun hu na nr => by
    refine ⟨?_, hu.moves k⟩
    cases k with
    | rests k => exact k.regions
    | idle r _ => exact r
    | activated r n l le _ => exact absurd le (na r n (LinkState.work_activate.1 l))
    | retired r l _ =>
      obtain ⟨a, d, v, e⟩ := LinkState.work_retire.1 l
      exact absurd e (nr r a d v)
  cases c with
  | rests r w =>
    have hu : u.RegionsLawful := h.moves (.idle r w)
    obtain ⟨e, ht⟩ := stays hu (fun q n e => absurd rfl ((w _ (LinkState.work_activate.2 e)).1 q n))
      fun q a d v e => absurd rfl ((w _ (LinkState.work_retire.2 ⟨a, d, v, e⟩)).2 q)
    exact ⟨ht, .of_regions (e.trans r)⟩
  | define r d allowed legal regions un =>
    have hu : u.RegionsLawful := h.setRegion (x := ⟨.defined, d⟩) rfl nofun (fun _ => legal) regions un
    obtain ⟨e, ht⟩ := stays hu (fun q n e => absurd e (un _)) fun q a d v e => un _ e
    refine ⟨ht, fun q n => ?_⟩
    have region : t.region q = if q = r then ⟨.defined, d⟩ else s.region q := by
      rw [State.region, e, regions]; exact s.setRegion_region r q _
    rw [region] at n ⊢
    split at n
    · next eq =>
      subst eq
      rw [if_pos rfl]
      obtain e | e := allowed
      · rw [e]; exact .head _
      · rw [e] at n; exact absurd rfl n
    · exact absurd rfl n
  | activate r allowed apart regions l =>
    have hu : u.RegionsLawful := h.setState (x := .activating) (by rw [allowed]; nofun) nofun (fun _ => .inr apart) regions
      (fun q n e => by rw [l] at e; cases e; exact ⟨rfl, rfl⟩) fun q a d v e => by rw [l] at e; cases e
    have definition : u.definition r = s.definition r := by
      rw [State.definition, State.region, regions]; exact s.setRegionState_definition r r .activating
    obtain ⟨e, ht⟩ := stays hu (fun q n e => by
      rw [l] at e
      cases e
      have := (h.legal r (by rw [allowed]; nofun)).count
      rw [definition]
      omega) fun q a d v e => by rw [l] at e; cases e
    exact ⟨ht, .of_setState (e.trans regions) (.inr (by rw [allowed]; decide))⟩
  | retire r a c v allowed regions l =>
    have hu : u.RegionsLawful := h.setState (x := .draining) (by rw [allowed]; nofun) nofun (fun _ => .inl (by rw [allowed]; rfl)) regions
      (fun q n e => by rw [l] at e; cases e) fun q a d v e => by rw [l] at e; cases e; exact ⟨rfl, rfl⟩
    refine ⟨hu.moves k, fun q n => ?_⟩
    have su : ∀ q, (u.region q).state = if q = r then .draining else (s.region q).state := fun q => by
      rw [State.region, regions]; exact s.setRegionState_state r q _
    have drained : t.regions = u.regions ∨ t.regions = (u.setRegionState r .defined).regions := by
      cases k with
      | rests k => exact .inl k.regions
      | idle r _ => exact .inl r
      | activated q n w _ _ => rw [l] at w; cases w
      | retired q w c =>
        have e : q = r := by
          obtain ⟨_, _, _, e⟩ := LinkState.work_retire.1 w
          rw [l] at e
          cases e
          rfl
        exact .inr (e ▸ c.regions)
    obtain e | e := drained
    · have st : (t.region q).state = (u.region q).state := by unfold State.region; rw [e]
      rw [st, su] at n ⊢
      split at n
      · next eq => subst eq; rw [if_pos rfl, allowed]; decide
      · exact absurd rfl n
    · have st : (t.region q).state = if q = r then .defined else (u.region q).state := by
        rw [State.region, e]; exact u.setRegionState_state r q _
      rw [st] at n ⊢
      split at n
      · next eq => subst eq; rw [if_pos rfl, allowed]; decide
      · next ne => rw [su, if_neg ne] at n; exact absurd rfl n
  | clear r allowed regions un =>
    have hu : u.RegionsLawful := h.setRegion (x := .emptyEntry) rfl (fun _ => rfl) (fun n => absurd rfl n) regions un
    obtain ⟨e, ht⟩ := stays hu (fun q n e => absurd e (un _)) fun q a d v e => un _ e
    refine ⟨ht, fun q n => ?_⟩
    have region : t.region q = if q = r then .emptyEntry else s.region q := by
      rw [State.region, e, regions]; exact s.setRegion_region r q _
    rw [region] at n ⊢
    split at n
    · next eq => subst eq; rw [if_pos rfl, allowed]; decide
    · exact absurd rfl n

/-! ### Every step (01) -/

theorem State.hardReset_region (s : State) : ∀ r, s.hardReset.region r = .emptyEntry := by
  show ∀ r, State.reset.region r = .emptyEntry
  decide

theorem State.hardReset_regionsLawful (s : State) : s.hardReset.RegionsLawful := by
  have state : ∀ r, (s.hardReset.region r).state = .empty := fun r => by rw [s.hardReset_region]; rfl
  refine ⟨fun r _ => ?_, fun r n => absurd (state r) n, fun q r _ own => ?_, nofun, nofun⟩
  · rw [State.definition, s.hardReset_region]; rfl
  · rw [state] at own; cases own

/-- The entry a tick fills is not the region's last, or the region goes to ACTIVE (01 R8). -/
theorem State.fillEntry_lawful {s : State} (h : s.RegionsLawful) : s.fillEntry.RegionsLawful ∧ s.RegionsStep s.fillEntry := by
  obtain ⟨r, n, l, e⟩ | ⟨-, e⟩ := s.fillEntry_cases <;> rw [e]
  · have filled : (s.filled r n).RegionsLawful := by
      refine ⟨h.blank, h.legal, h.apart, fun q m e => ?_, fun q a c v e => ?_⟩
      · cases e; exact h.activating r n l
      · cases e
    have moves := (s.filled r n).completeLong_moves
    exact ⟨filled.moves moves, State.RegionsStep.of_moves (s := s.filled r n) filled moves⟩
  · exact ⟨h, .of_regions rfl⟩

/-- What every step does to the region table. -/
theorem Steps.lawful {s t : State} {c : Instr} (h : s.RegionsLawful) (q : Steps s c t) :
    t.RegionsLawful ∧ ((c = .hardReset ∧ ∀ r, (t.region r).state = .empty) ∨ s.RegionsStep t) := by
  have rests : ∀ {t}, s.Rests t → t.RegionsLawful ∧ ((c = .hardReset ∧ ∀ r, (t.region r).state = .empty) ∨ s.RegionsStep t) :=
    fun k => ⟨h.rests k, .inr (.of_regions k.regions)⟩
  have moves : ∀ {t}, RegionMoves s t → t.RegionsLawful ∧ ((c = .hardReset ∧ ∀ r, (t.region r).state = .empty) ∨ s.RegionsStep t) :=
    fun k => ⟨h.moves k, .inr (.of_moves h k)⟩
  obtain q | ⟨u, q, rfl⟩ := q
  · cases q with
    | hardReset => exact ⟨s.hardReset_regionsLawful, .inl ⟨rfl, fun r => by rw [s.hardReset_region]; rfl⟩⟩
    | lineFalls x => exact rests ⟨rfl, rfl⟩
    | resetLineFalls p => exact rests ⟨rfl, rfl⟩
    | tick _ _ =>
      have expired := s.expireDue_quiets.moves
      have mid := h.moves expired
      obtain ⟨lawful, step⟩ := State.fillEntry_lawful (s := s.expireDue.setTimebase (s.expireDue.timebase + 1))
        (mid.rests ⟨rfl, rfl⟩)
      refine ⟨lawful, .inr ?_⟩
      have still : (s.expireDue.setTimebase (s.expireDue.timebase + 1)).regions = s.regions ∨
          (s.expireDue.setTimebase (s.expireDue.timebase + 1)).fillEntry.regions = s.expireDue.regions := by
        obtain ⟨r, n, l, e⟩ | ⟨-, e⟩ := State.fillEntry_cases (s.expireDue.setTimebase (s.expireDue.timebase + 1))
        · have executing : s.expireDue.link.state.work = some (.activate r n) := LinkState.work_activate.2 l
          cases expired with
          | rests k => exact .inl k.regions
          | idle r w => exact absurd rfl ((w _ executing).1 _ _)
          | activated _ _ _ _ c => exact absurd rfl ((c.work _ executing).1 _ _)
          | retired _ _ c => exact absurd rfl ((c.work _ executing).1 _ _)
        · exact .inr (by rw [e]; rfl)
      obtain e | e := still
      · intro r n
        have same : (s.expireDue.setTimebase (s.expireDue.timebase + 1)).region r = s.region r := by unfold State.region; rw [e]
        rw [← same] at n ⊢
        exact step r n
      · intro r n
        have same : (s.expireDue.setTimebase (s.expireDue.timebase + 1)).fillEntry.region r = s.expireDue.region r := by
          unfold State.region; rw [e]
        rw [same] at n ⊢
        exact State.RegionsStep.of_moves h expired r n
    | grant _ => exact rests (.of_writes s.grant_writes)
    | takeCommit => exact rests (.of_writes s.takeCommit_writes)
    | requestCapture => exact rests (.of_writes s.requestCapture_writes)
    | complete => exact moves s.completeLong_moves
    | link l => exact rests (.of_linkOnly l)
  · have settled := u.settle_quiets.moves
    cases q with
    | portReset p =>
      exact moves (RegionMoves.trans (.rests (.of_writes ((s.resetPort_writes p).seq (State.examineHolds_writes _)))) settled)
    | taken p r _ _ => exact moves (RegionMoves.trans (.rests (.of_writes (s.setPort_writes ..))) settled)
    | command v k l un =>
      obtain ⟨lawful, step⟩ := RegionTaken.lawful (h.rests (.of_linkOnly l)) (v.carryOut_carried k).regionTaken settled
      refine ⟨lawful, .inr fun r n => ?_⟩
      have same : v.region r = s.region r := by unfold State.region; rw [l.writes.regions]
      rw [← same] at n ⊢
      exact step r n
    | quiet q => exact moves (RegionMoves.trans (Quiets.moves q.to_reflTransGen) settled)

/-- Settles O53: what a step does of itself to the region table is nothing or the completion of the command in execution. -/
theorem everyStepKeepsTheRegionsLawful : Obligations.EveryStepKeepsTheRegionsLawful := by
  intro c s t h _ e
  obtain ⟨lawful, step⟩ := Steps.lawful h (Steps.of_exec e)
  refine ⟨lawful, fun r n => ?_⟩
  obtain ⟨rfl, empty⟩ | step := step
  · exact .inl ⟨rfl, empty r⟩
  · exact .inr (step r n)

end Sys2Proof.Machine

/-! SUPPORT. The ports' law through every step (02 R25; 03, 3.5.1), and updates with their owners and records (03 R43, R48, R58). -/

namespace Sys2Proof.Machine

/-! ### The ports' law (02 R25; 03, 3.5.1) -/

theorem State.PortsLawful.ready {s : State} (h : s.PortsLawful) : Ready False True s := ⟨False.elim, fun _ => h⟩

theorem State.PortsLawful.acts {E G : Prop} {s t : State} (h : s.PortsLawful) (q : Acts E True G s t) : t.PortsLawful :=
  q.keeps (fun _ _ a h => h.act trivial a) h

/-- A request taken joins the tail of its port's queue (02 R25). -/
theorem State.PortsLawful.taken {s : State} (h : s.PortsLawful) {p : Port} (room : (s.port p).queue.length < 8) (r : Request) :
    (s.setPort p { s.port p with queue := (s.port p).queue ++ [r] }).PortsLawful := by
  refine ⟨fun q => ?_, fun q => ?_, h.ports, fun g m => ?_⟩ <;> rw [State.setPort_port]
  · split
    · simp only [List.length_append, List.length_singleton]
      omega
    · exact h.fit q
  · split
    · exact fun e => absurd e (by simp)
    · exact h.idle q
  · split
    · next e =>
      obtain ⟨r', rest, queue, piece, words⟩ := h.piece g m
      rw [e] at queue piece words
      exact ⟨r', rest ++ [r], by simp [queue], piece, words⟩
    · exact h.piece g m

theorem State.canTake_iff (s : State) (p : Port) : s.canTake p = true ↔
    s.hardResetLine = false ∧ (s.port p).resetLine = false ∧ (s.port p).queue.length < 8 := by
  unfold State.canTake
  simp [and_assoc]

theorem State.PortsLawful.resetPort {s : State} (h : s.PortsLawful) (p : Port) : (s.resetPort p).PortsLawful := by
  rw [State.resetPort_eq]
  have released := (h.unported p).acts (State.releaseAll_acts (G := False) (h.unported p).ready (s.viewsOfPort p))
  exact released.writes (State.resetPlain_writes _ p)

theorem State.hardReset_idle (s : State) (p : Port) : (s.hardReset.port p).queue = [] ∧ (s.hardReset.port p).service = .fresh := by
  cases p <;> exact ⟨rfl, rfl⟩

theorem State.hardReset_portsLawful (s : State) : s.hardReset.PortsLawful :=
  ⟨fun p => by rw [(s.hardReset_idle p).1]; exact Nat.zero_le _, fun p _ => (s.hardReset_idle p).2, List.nodup_nil, nofun⟩

theorem State.portsLawful_kept : Kept State.PortsLawful := by
  refine ⟨fun s l h => h.writes (s.pending_writes l), fun s t q h => ?_, fun s p h => ?_, fun s p r can _ h => ?_, fun s k _ h => ?_,
    fun s _ => s.hardReset_portsLawful, fun s h => h.writes (s.setHardResetLine_writes _), fun s p h => ?_, fun s _ h => ?_,
    fun s h => h.acts (s.grant_acts (E := False) (G := False) id), fun s h => h.act trivial (.take (E := False) (G := False) s),
    fun s h => h.acts (s.requestCapture_acts (E := False) (G := False) id), fun s t l h => h.writes l.writes⟩
  · obtain q | rfl := q.acts (G := False) h.ready id
    · exact h.acts q
    · exact h.writes s.completeLong_writes
  · have reset := h.resetPort p
    exact reset.acts (State.examineHolds_acts (G := False) reset.ready)
  · exact h.taken ((s.canTake_iff p).1 can).2.2 r
  · refine State.PortsLawful.writes ?_ (State.conclude_writes ..)
    obtain q | ⟨u, w, q⟩ := (s.carryOut_carried k).acts (G := False) h.ready
    · exact h.acts q
    · exact (h.writes w).acts q
  · refine ⟨fun q => ?_, fun q => ?_, h.ports, fun g m => ?_⟩ <;> rw [State.setPort_port] <;> split
    · next e => exact e ▸ h.fit p
    · exact h.fit q
    · next e => exact e ▸ h.idle p
    · exact h.idle q
    · next e => exact e ▸ h.piece g m
    · exact h.piece g m
  · exact h.writes ((State.setTimebase_writes ..).seq (State.fillEntry_writes _))

/-! ### Updates and held writes that were there before -/

/-- Every update and every held write was there before: a GATHERING buffer was GATHERING for the same record of the same writer. -/
structure State.NoNewUpdates (s t : State) : Prop where
  updates : ∀ b, (t.buffer b).state = .gathering → (s.buffer b).state = .gathering ∧ (t.buffer b).region = (s.buffer b).region ∧
    (t.buffer b).record = (s.buffer b).record ∧ (t.buffer b).writer = (s.buffer b).writer ∧
    (t.buffer b).openingTime = (s.buffer b).openingTime
  holds : t.pool.holds.Sublist s.pool.holds

namespace State.NoNewUpdates

variable {s t u : State}

theorem of_keeps (h : s.KeepsUpdates t) : s.NoNewUpdates t :=
  ⟨fun b g => ⟨(h.state b).symm.trans g, h.region b, h.record b, h.writer b, h.openingTime b⟩, h.holds ▸ .refl _⟩

theorem of_writes {fs : List Field} (h : s.Writes fs t) (n : Field.pool ∉ fs := by decide) : s.NoNewUpdates t :=
  .of_keeps (.of_writes h n)

protected theorem trans (h : s.NoNewUpdates t) (k : t.NoNewUpdates u) : s.NoNewUpdates u := by
  refine ⟨fun b g => ?_, k.holds.trans h.holds⟩
  obtain ⟨g, region, record, writer, time⟩ := k.updates b g
  obtain ⟨g, region', record', writer', time'⟩ := h.updates b g
  exact ⟨g, region.trans region', record.trans record', writer.trans writer', time.trans time'⟩

/-- One buffer written, that gathers afterwards only as it did before. -/
theorem of_buffer {b : BufId} {x : Buffer} (buffer : ∀ c, t.buffer c = if c = b then x else s.buffer c)
    (same : x.state = .gathering → (s.buffer b).state = .gathering ∧ x.region = (s.buffer b).region ∧ x.record = (s.buffer b).record ∧
      x.writer = (s.buffer b).writer ∧ x.openingTime = (s.buffer b).openingTime)
    (holds : t.pool.holds.Sublist s.pool.holds) : s.NoNewUpdates t := by
  refine ⟨fun c g => ?_, holds⟩
  rw [buffer] at g ⊢
  split at g
  · next e => subst e; rw [if_pos rfl]; exact same g
  · next ne => rw [if_neg ne]; exact ⟨g, rfl, rfl, rfl, rfl⟩

end State.NoNewUpdates

/-- An act opens an update, holds a write, or brings none. -/
theorem Act.noNewUpdates {E F G : Prop} {s t : State} (a : Act E F G s t) :
    s.NoNewUpdates t ∨
    (∃ p x b, s.freeBuffer = some b ∧ s.gatheringOf x.region x.record = none ∧ s.WriterOf p x ∧ (F → s.Unheld p) ∧
      t = s.openBuffer p x b) ∨
    (∃ h b, s.freeBuffer = some b ∧ (F → h ∈ s.pool.holds) ∧
      t = (s.setPool { s.pool with holds := s.pool.holds.erase h }).openBuffer h.port h.spot b) ∨
    ∃ p x ws, s.WriterOf p x ∧ s.gatheringOf x.region x.record = none ∧ t = s.holdPiece p x ws := by
  cases a with
  | opening p x b f _ one writer unheld => exact .inr (.inl ⟨p, x, b, f, one, writer, unheld, rfl⟩)
  | openHeld y b f _ held => exact .inr (.inr (.inl ⟨y, b, f, held, rfl⟩))
  | hold p x ws r rest writer one _ _ _ _ _ => exact .inr (.inr (.inr ⟨p, x, ws, writer, one, rfl⟩))
  | other w => exact .inl (.of_writes w)
  | mark b => exact .inl (.of_keeps (.setBuffer s b _ true))
  | stage b k ws g =>
    obtain ⟨-, region, record, writer, time, -⟩ := stageWords_fields (s.buffer b) k ws
    exact .inl (.of_buffer (s.setBuffer_buffer b · _) (fun _ => ⟨g, region, record, writer, time⟩) (.refl _))
  | close b _ => exact .inl (.of_buffer (s.closeBuffer_buffer b) nofun (.refl _))
  | free b _ => exact .inl (.of_buffer (s.freeGathering_buffer b) nofun (.refl _))
  | dropHold y => exact .inl ⟨fun b g => ⟨g, rfl, rfl, rfl, rfl⟩, List.erase_sublist⟩
  | dropHolds p => exact .inl ⟨fun b g => ⟨g, rfl, rfl, rfl, rfl⟩, List.filter_sublist⟩
  | discard =>
    refine .inl ⟨fun b g => ?_, .refl _⟩
    rw [State.discardUpdates_buffer] at g
    split at g
    · cases g
    · next n => exact absurd (.inl g) n
  | take =>
    obtain e | ⟨b, job, _, _, rfl, _, e⟩ := s.takeCommit_cases
    · rw [e]
      exact .inl (.of_keeps (.refl s))
    · refine .inl ?_
      rw [e]
      exact .of_buffer (b := job.buffer) (fun c => s.setBuffer_buffer ..) nofun (.refl _)
  | commit job _ _ => exact .inl (.of_buffer (b := job.buffer) (fun c => s.freeCommitted_buffer ..) nofun (.refl _))
  | engine e _ _ => exact .inl (.of_writes (s.setEngine_writes e))
  | freeView p v _ => exact .inl (.of_writes (s.freeView_writes p v))
  | withdraw p v c _ _ => exact .inl (.of_keeps ((State.KeepsUpdates.of_writes (s.freeView_writes p v)).trans (State.endCapture_keepsUpdates ..)))
  | cancel p v c _ _ =>
    exact .inl (.of_keeps ((State.KeepsUpdates.of_writes ((s.freeView_writes p v).seq (State.setCaptureRequest_writes _ none))).trans
      (State.endCapture_keepsUpdates ..)))
  | unview p v => exact .inl (.of_writes ((s.freeView_writes p v).seq (State.setCaptures_writes ..)))
  | openView p v r k _ _ _ => exact .inl (.of_writes (s.openView_writes ..))
  | touch p v _ => exact .inl (.of_writes (s.setViews_writes ..))
  | endCapture c _ _ _ => exact .inl (.of_keeps (s.endCapture_keepsUpdates c))
  | fill c v x _ _ _ _ _ _ _ =>
    exact .inl (.of_keeps ((s.endCapture_keepsUpdates c).trans (.of_writes (State.setView_writes ..))))
  | fail c v _ _ _ => exact .inl (.of_keeps ((s.endCapture_keepsUpdates c).trans (State.releaseView_keepsUpdates ..)))
  | relabel l _ _ => exact .inl (.of_writes (s.setCaptures_writes _))
  | serve p v _ _ _ => exact .inl (.of_writes (s.setService_writes p v))
  | request p q n x w _ _ _ => exact .inl (.of_writes ((s.setPlainRequest_writes ..).seq (State.awaitPiece_writes ..)))
  | respond p r rest _ _ => exact .inl (.of_writes (s.respond_writes ..))
  | endHeld p n st _ _ => exact .inl (.of_writes (s.finishPiece_writes ..))
  | memory _ w => exact .inl (.of_writes w)
  | loose _ _ w => exact .inl (.of_writes w)

/-! ### The owners and the records of updates (03 R43, R48, R58) -/

/-- Every update and every held write is of its region's writer, and of an ACTIVE region or one of these. -/
structure State.UpdatesOwnedBut (e : RegionId → Prop) (s : State) : Prop where
  buffers : ∀ b, (s.buffer b).state = .gathering →
    ((s.region (s.buffer b).region).state = .active ∨ e (s.buffer b).region) ∧
      (s.definition (s.buffer b).region).writer = (s.buffer b).writer
  holds : ∀ h ∈ s.pool.holds,
    ((s.region h.spot.region).state = .active ∨ e h.spot.region) ∧ (s.definition h.spot.region).writer = h.port

theorem State.updatesOwned_iff (s : State) : s.UpdatesOwned ↔ s.UpdatesOwnedBut fun _ => False :=
  ⟨fun h => ⟨fun b g => ⟨.inl (h.buffers b g).1, (h.buffers b g).2⟩, fun y m => ⟨.inl (h.holds y m).1, (h.holds y m).2⟩⟩,
    fun h => ⟨fun b g => ⟨(h.buffers b g).1.resolve_right id, (h.buffers b g).2⟩,
      fun y m => ⟨(h.holds y m).1.resolve_right id, (h.holds y m).2⟩⟩⟩

theorem State.gatheringOf_eq_none {s : State} {r : RegionId} {k : Nat} : s.gatheringOf r k = none ↔
    ∀ b, (s.buffer b).state = .gathering → ¬((s.buffer b).region = r ∧ (s.buffer b).record = k) := by
  unfold State.gatheringOf
  rw [List.find?_eq_none]
  refine ⟨fun h b g => ?_, fun h b _ => ?_⟩
  · have none := h b (mem_allBuffers b)
    simp only [Buffer.ofRecord, Bool.and_eq_true, decide_eq_true_eq, bne_iff_ne, beq_iff_eq] at none
    exact fun e => none ⟨g, ⟨by rw [g]; nofun, e.1⟩, e.2⟩
  · simp only [Buffer.ofRecord, Bool.and_eq_true, decide_eq_true_eq, bne_iff_ne, beq_iff_eq]
    exact fun e => h b e.1 ⟨e.2.1.2, e.2.2⟩

/-- What the laws of owners and records rest on, and say, in the course of a step; that of records is said under the condition `O`. -/
structure State.Updating (O : Prop) (e : RegionId → Prop) (s : State) : Prop where
  pool : s.PoolLawful
  ports : s.PortsLawful
  owned : s.UpdatesOwnedBut e
  one : O → s.OneUpdatePerRecord

namespace State.Updating

variable {O : Prop} {e : RegionId → Prop} {s t : State}

theorem ready (h : s.Updating O e) : Ready True True s := ⟨fun _ => h.pool, fun _ => h.ports⟩

theorem one_fewer (h : s.OneUpdatePerRecord) (k : s.NoNewUpdates t) : t.OneUpdatePerRecord := by
  refine ⟨fun b c ne gb gc => ?_, fun y m => State.gatheringOf_eq_none.2 fun b g => ?_⟩
  · obtain ⟨gb, rb, kb, -, -⟩ := k.updates b gb
    obtain ⟨gc, rc, kc, -, -⟩ := k.updates c gc
    rw [rb, kb, rc, kc]
    exact h.unique b c ne gb gc
  · obtain ⟨g, r, k', -, -⟩ := k.updates b g
    rw [r, k']
    exact State.gatheringOf_eq_none.1 (h.held y (k.holds.subset m)) b g

theorem owned_fewer (h : s.UpdatesOwnedBut e) (k : s.NoNewUpdates t) (regions : t.regions = s.regions) : t.UpdatesOwnedBut e := by
  have region : t.region = s.region := by unfold State.region; rw [regions]
  have definition : t.definition = s.definition := by unfold State.definition; rw [region]
  refine ⟨fun b g => ?_, fun y m => ?_⟩
  · obtain ⟨g, r, -, w, -⟩ := k.updates b g
    rw [region, definition, r, w]
    exact h.buffers b g
  · rw [region, definition]
    exact h.holds y (k.holds.subset m)

/-- A buffer opens for a record that has none, of its writer, with no held write for it. -/
theorem one_opens (h : s.OneUpdatePerRecord) {p : Port} {x : Spot} {b : BufId} (none : s.gatheringOf x.region x.record = none)
    (held : ∀ y ∈ s.pool.holds, ¬(x.region = y.spot.region ∧ x.record = y.spot.record)) : (s.openBuffer p x b).OneUpdatePerRecord := by
  have buffer := s.openBuffer_buffer p x b
  rw [State.gatheringOf_eq_none] at none
  refine ⟨fun c d ne gc gd => ?_, fun y m => State.gatheringOf_eq_none.2 fun c g => ?_⟩
  · rw [buffer] at gc gd ⊢
    rw [buffer]
    by_cases ec : c = b <;> by_cases ed : d = b
    · exact absurd (ec.trans ed.symm) ne
    · rw [if_pos ec, if_neg ed]
      rw [if_neg ed] at gd
      exact fun ⟨r, k⟩ => none d gd ⟨r.symm, k.symm⟩
    · rw [if_neg ec, if_pos ed]
      rw [if_neg ec] at gc
      exact none c gc
    · rw [if_neg ec, if_neg ed]
      rw [if_neg ec] at gc
      rw [if_neg ed] at gd
      exact h.unique c d ne gc gd
  · rw [buffer] at g ⊢
    split
    · exact held y m
    · next ne =>
      rw [if_neg ne] at g
      exact State.gatheringOf_eq_none.1 (h.held y m) c g

theorem owned_opens (h : s.UpdatesOwnedBut e) {p : Port} {x : Spot} (b : BufId)
    (active : (s.region x.region).state = .active ∨ e x.region) (writer : (s.definition x.region).writer = p) :
    (s.openBuffer p x b).UpdatesOwnedBut e := by
  refine ⟨fun c g => ?_, h.holds⟩
  rw [s.openBuffer_buffer] at g ⊢
  split
  · exact ⟨active, writer⟩
  · next ne =>
    rw [if_neg ne] at g
    exact h.buffers c g

theorem act {G : Prop} (h : s.Updating O e) (a : Act True True G s t) : t.Updating O e := by
  refine ⟨h.pool.act trivial a, h.ports.act trivial a, ?_, ?_⟩ <;>
    obtain k | ⟨p, x, b, -, none, writer, unheld, rfl⟩ | ⟨y, b, -, held, rfl⟩ | ⟨p, x, ws, writer, none, rfl⟩ := a.noNewUpdates
  · exact owned_fewer h.owned k a.writes.regions
  · exact owned_opens h.owned b (.inl writer.active) writer.writer
  · have dropped : (s.setPool { s.pool with holds := s.pool.holds.erase y }).UpdatesOwnedBut e :=
      ⟨h.owned.buffers, fun z m => h.owned.holds z (List.mem_of_mem_erase m)⟩
    obtain ⟨active, writer⟩ := h.owned.holds y (held trivial)
    exact owned_opens dropped b active writer
  · refine ⟨h.owned.buffers, fun z m => ?_⟩
    obtain m | m := List.mem_append.1 m
    · exact h.owned.holds z m
    · rw [List.mem_singleton.1 m]
      exact ⟨.inl writer.active, writer.writer⟩
  · exact fun o => one_fewer (h.one o) k
  · refine fun o => one_opens (h.one o) none fun y m same => unheld trivial y m ?_
    rw [← (h.owned.holds y m).2, ← same.1]
    exact writer.writer
  · have mem := held trivial
    intro o
    have dropped : (s.setPool { s.pool with holds := s.pool.holds.erase y }).OneUpdatePerRecord :=
      ⟨(h.one o).unique, fun z m => (h.one o).held z (List.mem_of_mem_erase m)⟩
    refine one_opens dropped ((h.one o).held y mem) fun z m same => h.ports.unheld_erase mem z m ?_
    rw [← (h.owned.holds z (List.mem_of_mem_erase m)).2, ← (h.owned.holds y mem).2, same.1]
  · refine fun o => ⟨(h.one o).unique, fun z m => ?_⟩
    obtain m | m := List.mem_append.1 m
    · exact (h.one o).held z m
    · rw [List.mem_singleton.1 m]
      exact none

theorem acts {G : Prop} (h : s.Updating O e) (q : Acts True True G s t) : t.Updating O e := q.keeps (fun _ _ a h => h.act a) h

/-- The laws read the pool, the ports, the engine and the regions. -/
theorem writes (h : s.Updating O e) {fs : List Field} (w : s.Writes fs t) (l : Field.pool ∉ fs := by decide)
    (p : Field.ports ∉ fs := by decide) (g : Field.engine ∉ fs := by decide) (r : Field.regions ∉ fs := by decide) : t.Updating O e :=
  ⟨h.pool.writes w l g, h.ports.writes w p l, owned_fewer h.owned (.of_writes w l) (w.regions r), fun o => one_fewer (h.one o) (.of_writes w l)⟩

/-- Regions change, but for the writers of those that updates may be of. -/
theorem regions (h : s.Updating O e) {e' : RegionId → Prop} {fs : List Field} (w : s.Writes fs t)
    (still : ∀ r, (s.region r).state = .active ∨ e r →
      ((t.region r).state = .active ∨ e' r) ∧ (t.definition r).writer = (s.definition r).writer)
    (l : Field.pool ∉ fs := by decide) (p : Field.ports ∉ fs := by decide) (g : Field.engine ∉ fs := by decide) : t.Updating O e' := by
  have none : s.NoNewUpdates t := .of_writes w l
  refine ⟨h.pool.writes w l g, h.ports.writes w p l, ⟨fun b gb => ?_, fun y m => ?_⟩, fun o => one_fewer (h.one o) none⟩
  · obtain ⟨gb, r, -, wr, -⟩ := none.updates b gb
    obtain ⟨active, writer⟩ := h.owned.buffers b gb
    rw [r, wr, (still _ active).2]
    exact ⟨(still _ active).1, writer⟩
  · obtain ⟨active, writer⟩ := h.owned.holds y (none.holds.subset m)
    rw [(still _ active).2]
    exact ⟨(still _ active).1, writer⟩

end State.Updating

/-! ### RETIRE's updates and held writes (03 R58, R65) -/

/-- What a fold over buffers leaves GATHERING was not in it, and is as it was. -/
theorem State.eachGathering_gone {g : State → BufId → State}
    (others : ∀ (s : State) (b c : BufId), c ≠ b → (g s b).buffer c = s.buffer c)
    (gone : ∀ (s : State) (b : BufId), ((g s b).buffer b).state ≠ .gathering) (l : List BufId) (s : State) (c : BufId)
    (h : ((l.foldl g s).buffer c).state = .gathering) : c ∉ l ∧ (l.foldl g s).buffer c = s.buffer c := by
  induction l generalizing s with
  | nil => exact ⟨List.not_mem_nil, rfl⟩
  | cons b l ih =>
    obtain ⟨out, same⟩ := ih (g s b) h
    have ne : c ≠ b := by
      rintro rfl
      exact gone s c (same ▸ h)
    exact ⟨List.not_mem_cons_of_ne_of_not_mem ne out, same.trans (others s b c ne)⟩

section
variable {O : Prop} {s : State}

/-- After RETIRE's work no update of the region is left (03 R65). -/
theorem State.undone_gathering (h : s.PoolLawful) (owned : s.UpdatesOwned) (r : RegionId) (m : DrainMode) (b : BufId)
    (g : ((s.undone r m).buffer b).state = .gathering) : ((s.undone r m).buffer b).region ≠ r := by
  have kept := s.unviewed_keepsUpdates r
  have out : b ∉ s.gatheringIn r ∧ (s.undone r m).buffer b = (s.unviewed r).buffer b := by
    unfold State.undone at g ⊢
    cases m with
    | abandon =>
      refine State.eachGathering_gone (fun s b c ne => s.abandonBuffer_others .retire b c ne) (fun s b => ?_) _ _ b g
      rw [show (s.abandonBuffer .retire b).buffer b = (s.freeGathering b).buffer b from rfl, State.freeGathering_buffer, if_pos rfl]
      nofun
    | close =>
      refine State.eachGathering_gone (fun s b c ne => s.closeBuffer_others b c ne) (fun s b => ?_) _ _ b g
      rw [State.closeBuffer_buffer, if_pos rfl]
      nofun
  intro e
  rw [out.2] at g e
  rw [kept.state] at g
  rw [kept.region] at e
  refine out.1 (List.mem_filter.2 ⟨(h.gathering_iff _ b).2 ⟨g, ?_⟩, by simpa using e⟩)
  rw [← (owned.buffers b g).2, e]

/-- Held writes refused in turn leave the list, and leave the buffers (03 R58). -/
theorem State.refuseEach (l : List HeldWrite) (s : State) (nodup : s.pool.holds.Nodup) :
    (∀ b, (l.foldl (State.refuseHold · .retired ·) s).buffer b = s.buffer b) ∧
    ∀ y ∈ (l.foldl (State.refuseHold · .retired ·) s).pool.holds, y ∈ s.pool.holds ∧ y ∉ l := by
  induction l generalizing s with
  | nil => exact ⟨fun _ => rfl, fun y m => ⟨m, List.not_mem_nil⟩⟩
  | cons h l ih =>
    obtain ⟨buffer, holds⟩ := ih (s.refuseHold .retired h) (by rw [State.refuseHold_holds]; exact nodup.erase h)
    refine ⟨buffer, fun y m => ?_⟩
    obtain ⟨m, out⟩ := holds y m
    rw [State.refuseHold_holds, nodup.mem_erase_iff] at m
    exact ⟨m.2, List.not_mem_cons_of_ne_of_not_mem m.1 out⟩

namespace State.Updating

/-- A RETIRE leaves updates and held writes of ACTIVE regions only (03 R58, R65). -/
theorem retireTaken (h : s.Updating O fun _ => False) {r : RegionId} (m : DrainMode) :
    (s.retireTaken r m).1.Updating O fun _ => False := by
  have draining : (s.setRegionState r .draining).Updating O (· = r) := by
    refine h.regions (s.setRegions_writes _) fun q active => ⟨?_, by rw [State.setRegionState_definition]⟩
    rw [State.setRegionState_state]
    by_cases e : q = r
    · exact .inr e
    · rw [if_neg e]
      exact .inl (active.resolve_right id)
  have ready : Ready True True s := h.ready
  have drained : (s.drained r m).Updating O (· = r) := draining.acts (State.drained_acts (G := False) ready r m)
  have nodup : (s.undone r m).pool.holds.Nodup := by
    have undone := (draining.acts (State.unviewed_acts (G := False) ready r)).acts (State.undone_acts (G := False) ready.pool r m)
    exact undone.ports.holds_nodup
  obtain ⟨buffer, holds⟩ := State.refuseEach ((s.undone r m).holdsIn r) (s.undone r m) nodup
  have none : (s.drained r m).UpdatesOwnedBut fun _ => False := by
    refine ⟨fun b g => ?_, fun y my => ?_⟩
    · obtain ⟨active, writer⟩ := drained.owned.buffers b g
      refine ⟨.inl (active.resolve_right fun e => ?_), writer⟩
      have same : (s.drained r m).buffer b = (s.undone r m).buffer b := buffer b
      rw [same] at g e
      exact State.undone_gathering h.pool (s.updatesOwned_iff.2 h.owned) r m b g e
    · obtain ⟨active, writer⟩ := drained.owned.holds y my
      refine ⟨.inl (active.resolve_right fun e => ?_), writer⟩
      obtain ⟨mem, out⟩ := holds y my
      exact out (List.mem_filter.2 ⟨mem, by simpa using e⟩)
  have rest : (s.drained r m).Updating O fun _ => False := ⟨drained.pool, drained.ports, none, drained.one⟩
  rw [State.retireTaken_eq]
  exact rest.acts (State.examineHolds_acts (G := False) rest.ready)

end State.Updating

end

/-! ### Every step (03 R43, R48, R58) -/

section
variable {O : Prop} {s t : State}

/-- A completion moves a region that is not ACTIVE (01 R8, R12). -/
theorem State.completeLong_active (lawful : s.RegionsLawful) {r : RegionId} (was : (s.region r).state = .active) :
    (s.completeLong.region r).state = .active := by
  obtain e | ⟨q, n, l, -, e⟩ | ⟨q, a, c, v, l, -, e⟩ | ⟨a, v, -, e⟩ | ⟨g, c, v, f, -, e⟩ := s.completeLong_cases <;> rw [e]
  · exact was
  · show ((s.setRegionState q .active).region r).state = .active
    rw [State.setRegionState_state]
    split
    · rfl
    · exact was
  · show ((s.setRegionState q .defined).region r).state = .active
    rw [State.setRegionState_state, if_neg ?_]
    · exact was
    · rintro rfl
      rw [lawful.draining r a c v l] at was
      cases was
  · exact was
  · exact was

theorem State.RegionsLawful.filled (lawful : s.RegionsLawful) {r : RegionId} {n : Nat} (l : s.link.state = .executing (.activate r n)) :
    (s.filled r n).RegionsLawful := by
  refine ⟨lawful.blank, lawful.legal, lawful.apart, fun q m e => ?_, nofun⟩
  cases e
  exact lawful.activating r n l

/-- A tick leaves each ACTIVE region ACTIVE, and each definition. -/
theorem State.fillEntry_active (lawful : s.RegionsLawful) {r : RegionId} (was : (s.region r).state = .active) :
    (s.fillEntry.region r).state = .active := by
  obtain ⟨q, n, l, e⟩ | ⟨-, e⟩ := s.fillEntry_cases <;> rw [e]
  · exact State.completeLong_active (lawful.filled l) was
  · exact was

theorem State.fillEntry_definition (s : State) (r : RegionId) : s.fillEntry.definition r = s.definition r := by
  obtain ⟨q, n, l, e⟩ | ⟨-, e⟩ := s.fillEntry_cases <;> rw [e]
  exact State.completeLong_definition _ r

namespace State.Updating

theorem completeLong (lawful : s.RegionsLawful) (h : s.Updating O fun _ => False) : s.completeLong.Updating O fun _ => False :=
  h.regions s.completeLong_writes fun r active =>
    ⟨.inl (State.completeLong_active lawful (active.resolve_right id)), by rw [s.completeLong_definition]⟩

/-- A port reset drops the port's updates and its held write (02 R38; 03 R63). -/
theorem unported (h : s.Updating O fun _ => False) (p : Port) : (s.unported p).Updating O fun _ => False := by
  have dropped : s.NoNewUpdates (s.dropRequests p) := .of_writes (s.dropRequests_writes p)
  have pool : (s.dropRequests p).PoolLawful := h.pool.writes (s.dropRequests_writes p)
  have acts : Acts True True False (s.dropRequests p) (s.unported p) := State.unported_acts (fun _ => h.pool) p
  have abandoned : s.NoNewUpdates (s.unported p) := by
    refine dropped.trans (State.NoNewUpdates.trans (t := (s.dropRequests p).abandonAll p .portReset) ?_ ⟨fun b g => ⟨g, rfl, rfl, rfl, rfl⟩, List.filter_sublist⟩)
    unfold State.abandonAll
    generalize (s.dropRequests p).pool.gathering.get p = l
    generalize s.dropRequests p = u
    induction l generalizing u with
    | nil => exact .of_keeps (.refl u)
    | cons b l ih =>
      exact State.NoNewUpdates.trans (t := u.abandonBuffer .portReset b)
        (.of_buffer (b := b) (u.freeGathering_buffer b) nofun (.refl _)) (ih _)
  exact ⟨acts.keeps (fun _ _ a h => h.act trivial a) pool, h.ports.unported p,
    owned_fewer h.owned abandoned (acts.writes.regions.trans (s.dropRequests_writes p).regions), fun o => one_fewer (h.one o) abandoned⟩

theorem resetPort (h : s.Updating O fun _ => False) (p : Port) : (s.resetPort p).Updating O fun _ => False := by
  rw [State.resetPort_eq]
  have unported := h.unported p
  exact (unported.acts (State.releaseAll_acts (G := False) unported.ready _)).writes (State.resetPlain_writes _ p)

/-- A region whose definition changes is not ACTIVE before (01 R1). -/
theorem setRegion (h : s.Updating O fun _ => False) {r : RegionId} (was : (s.region r).state ≠ .active) (x : Region) :
    (s.setRegion r x).Updating O fun _ => False := by
  refine h.regions (s.setRegions_writes _) fun q active => ?_
  have ne : q ≠ r := by
    rintro rfl
    exact was (active.resolve_right id)
  have same : (s.setRegion r x).region q = s.region q := by rw [State.setRegion_region, if_neg ne]
  exact ⟨.inl (by rw [same]; exact active.resolve_right id), by rw [State.definition, same]; rfl⟩

theorem carried {x : Reply} (h : s.Updating O fun _ => False) (c : Carried s t x) : t.Updating O fun _ => False := by
  cases c with
  | done d => exact h
  | fail c => exact h
  | define r d allowed _ _ => exact h.setRegion (by obtain e | e := allowed <;> rw [e] <;> nofun) _
  | activate r allowed _ => exact h.setRegion (by rw [allowed]; nofun) _
  | retire r m _ => exact h.retireTaken m
  | clear r d allowed => exact (h.setRegion (r := r) (by rw [allowed]; nofun) .emptyEntry).writes (State.clearWatches_writes ..)
  | clean r k d _ _ => exact h.writes (s.setVersions_writes _)
  | setWatch i w r d => exact h.writes (s.setWatch_writes ..)
  | clearWatch i d => exact h.writes (s.setWatch_writes ..)
  | readEvents n d => exact h.writes (s.setEvents_writes _)
  | setMasks q a => exact h.writes (s.setEvents_writes _)
  | flush p => exact h.acts (State.flushTaken_acts (G := False) h.ready p)
  | restart => exact h.acts (State.doRestart_acts (G := False) h.ready)

end State.Updating

theorem State.hardReset_updating (s : State) : s.hardReset.Updating O fun _ => False := by
  have none : ∀ b, (s.hardReset.buffer b).state ≠ .gathering := fun b => by rw [s.hardReset_buffer]; nofun
  exact ⟨s.hardReset_poolLawful, s.hardReset_portsLawful, ⟨fun b g => absurd g (none b), nofun⟩,
    fun _ => ⟨fun b c _ g => absurd g (none b), nofun⟩⟩

theorem State.RegionsLawful.fillEntry (h : s.RegionsLawful) : s.fillEntry.RegionsLawful := (State.fillEntry_lawful h).1

theorem State.Updating.fillEntry (lawful : s.RegionsLawful) (h : s.Updating O fun _ => False) : s.fillEntry.Updating O fun _ => False :=
  h.regions s.fillEntry_writes fun r active =>
    ⟨.inl (State.fillEntry_active lawful (active.resolve_right id)), by rw [s.fillEntry_definition]⟩

theorem State.regionsLawful_kept : Kept State.RegionsLawful := by
  refine ⟨fun s l h => h.rests ⟨rfl, rfl⟩, fun s t q h => h.moves q.moves,
    fun s p h => h.rests (.of_writes ((s.resetPort_writes p).seq (State.examineHolds_writes _))),
    fun s p r _ _ h => h.rests (.of_writes (s.setPort_writes ..)), fun s k _ h => ?_, fun s _ => s.hardReset_regionsLawful,
    fun s h => h.rests ⟨rfl, rfl⟩, fun s p h => h.rests ⟨rfl, rfl⟩, fun s _ h => State.RegionsLawful.fillEntry (h.rests ⟨rfl, rfl⟩),
    fun s h => h.rests (.of_writes s.grant_writes), fun s h => h.rests (.of_writes s.takeCommit_writes),
    fun s h => h.rests (.of_writes s.requestCapture_writes), fun s t l h => h.rests (.of_linkOnly l)⟩
  exact (RegionTaken.lawful h (s.carryOut_carried k).regionTaken (.rests (.refl _))).1

/-- The owners and records of updates are kept by every step, with the laws they rest on. -/
theorem State.updating_kept (O : Prop) : Kept fun s => s.RegionsLawful ∧ s.Updating O fun _ => False := by
  have R := State.regionsLawful_kept
  refine ⟨fun s l ⟨r, h⟩ => ⟨R.pending s l r, h.writes (s.pending_writes l)⟩, fun s t q ⟨r, h⟩ => ⟨R.quiet s t q r, ?_⟩,
    fun s p ⟨r, h⟩ => ⟨R.portReset s p r, ?_⟩, fun s p x can formed ⟨r, h⟩ => ⟨R.taken s p x can formed r, ?_⟩,
    fun s k un ⟨r, h⟩ => ⟨R.command s k un r, ?_⟩, fun s ⟨r, _⟩ => ⟨R.hardReset s r, s.hardReset_updating⟩,
    fun s ⟨r, h⟩ => ⟨R.lineFalls s r, h.writes (s.setHardResetLine_writes _)⟩,
    fun s p ⟨r, h⟩ => ⟨R.resetLineFalls s p r, ?_⟩, fun s ⟨r, _⟩ ⟨r', h⟩ => ⟨R.tick s r r', ?_⟩,
    fun s ⟨r, h⟩ => ⟨R.grant s r, h.acts (s.grant_acts (G := False) id)⟩,
    fun s ⟨r, h⟩ => ⟨R.takeCommit s r, h.act (.take (G := False) s)⟩,
    fun s ⟨r, h⟩ => ⟨R.requestCapture s r, h.acts (s.requestCapture_acts (G := False) id)⟩,
    fun s t l ⟨r, h⟩ => ⟨R.link s t l r, h.writes l.writes⟩⟩
  · obtain q | rfl := q.acts (G := False) h.ready id
    · exact h.acts q
    · exact h.completeLong r
  · have reset := h.resetPort p
    exact reset.acts (State.examineHolds_acts (G := False) reset.ready)
  · exact ⟨h.pool.writes (s.setPort_writes ..), h.ports.taken ((s.canTake_iff p).1 can).2.2 x, ⟨h.owned.buffers, h.owned.holds⟩,
      fun o => ⟨(h.one o).unique, (h.one o).held⟩⟩
  · exact (h.carried (s.carryOut_carried k)).writes (State.conclude_writes ..)
  · exact ⟨h.pool.writes (s.setPort_writes ..), State.portsLawful_kept.resetLineFalls s p h.ports, ⟨h.owned.buffers, h.owned.holds⟩,
      fun o => ⟨(h.one o).unique, (h.one o).held⟩⟩
  · exact State.Updating.fillEntry (s := s.expireDue.setTimebase (s.expireDue.timebase + 1)) (r'.rests ⟨rfl, rfl⟩)
      (h.writes (State.setTimebase_writes ..))

end

/-- Settles O57: each act of a step opens an update only for a record that has none, in its writer's name. -/
theorem everyStepKeepsOneUpdatePerRecord : Obligations.EveryStepKeepsOneUpdatePerRecord := by
  intro s t regions pool ports owned one e
  obtain ⟨-, h⟩ := (State.updating_kept True).step e ⟨regions, pool, ports, s.updatesOwned_iff.1 owned, fun _ => one⟩
  exact ⟨t.updatesOwned_iff.2 h.owned, h.one trivial⟩

end Sys2Proof.Machine

/-! SUPPORT. The view store's laws through every act (05 R85, R86, R94). -/

namespace Sys2Proof.Machine

/-- The view a capture fills, and its record. -/
def Capture.target (c : Capture) : Option ViewIx × Port × RegionId × Nat := (c.view, c.port, c.region, c.record)

theorem Capture.fills_iff {c : Capture} {p : Port} {v : ViewIx} : c.fills p v = true ↔ c.port = p ∧ c.view = some v := by
  simp [Capture.fills]

/-- The captures of which no two fill one view (05 R94). -/
def FillApart (c d : Capture) : Prop := ∀ p v, ¬(c.fills p v = true ∧ d.fills p v = true)

theorem FillApart.symm {c d : Capture} (h : FillApart c d) : FillApart d c := fun p v k => h p v ⟨k.2, k.1⟩

theorem State.setView_view (s : State) (p q : Port) (v w : ViewIx) (x : View) :
    (s.setView p v x).view q w = if q = p ∧ w = v then x else s.view q w := by
  unfold State.setView
  rw [State.setViews_view, cell_put]
  by_cases hq : q = p
  · subst hq
    simp only [if_true, true_and]
    rfl
  · rw [if_neg hq, if_neg fun k => hq k.1]

theorem State.endCapture_view (s : State) (c : Capture) (q : Port) (w : ViewIx) : (s.endCapture c).view q w = s.view q w := by
  rw [State.view, (s.endCapture_outside_views c).1]
  rfl

namespace State.ViewsLawful

variable {s t : State}

/-- No other capture fills the view that one fills (05 R94). -/
theorem apart_erase (h : s.ViewsLawful) {c : Capture} (mem : c ∈ s.captures) {d : Capture} (out : d ∈ s.captures.erase c) :
    FillApart c d := by
  have pairs : (c :: s.captures.erase c).Pairwise FillApart :=
    ((List.perm_cons_erase mem).pairwise_iff fun k => FillApart.symm k).1 h.distinct
  exact List.rel_of_pairwise_cons pairs out

/-- The laws read the view store, and the captures' views and records. -/
theorem congr (h : s.ViewsLawful) (views : t.views = s.views) (targets : t.captures.map Capture.target = s.captures.map Capture.target) :
    t.ViewsLawful := by
  have view : t.view = s.view := by unfold State.view; rw [views]
  have old : ∀ c ∈ t.captures, ∃ d ∈ s.captures, d.target = c.target := fun c hc =>
    List.mem_map.1 (targets ▸ List.mem_map_of_mem hc)
  have new : ∀ c ∈ s.captures, ∃ d ∈ t.captures, d.target = c.target := fun c hc =>
    List.mem_map.1 (targets.symm ▸ List.mem_map_of_mem hc)
  have fields : ∀ {c d : Capture}, c.target = d.target → c.view = d.view ∧ c.port = d.port ∧ c.region = d.region ∧ c.record = d.record :=
    fun e => by simpa [Capture.target] using e
  refine ⟨fun p v => ?_, fun p => views ▸ h.use_nodup p, fun p v w => ?_, fun c hc v e => ?_, fun p v e => ?_, ?_⟩
  · rw [view, views]; exact h.use_iff p v
  · rw [view]; exact h.unique p v w
  · obtain ⟨d, hd, same⟩ := old c hc
    obtain ⟨ev, ep, er, ek⟩ := fields same
    rw [view, ← ep, ← er, ← ek]
    exact h.fills d hd v (ev.trans e)
  · rw [view] at e
    obtain ⟨c, hc, f⟩ := h.capturing p v e
    obtain ⟨d, hd, same⟩ := new c hc
    obtain ⟨ev, ep, -, -⟩ := fields same
    exact ⟨d, hd, by rw [Capture.fills_iff] at f ⊢; rw [ev, ep]; exact f⟩
  · let R := fun (a b : Option ViewIx × Port × RegionId × Nat) => ∀ p v, ¬((a.2.1 = p ∧ a.1 = some v) ∧ (b.2.1 = p ∧ b.1 = some v))
    have pairs : (s.captures.map Capture.target).Pairwise R := List.pairwise_map.2 (h.distinct.imp fun {c d} k p v m =>
      k p v ⟨Capture.fills_iff.2 m.1, Capture.fills_iff.2 m.2⟩)
    rw [← targets] at pairs
    exact (List.pairwise_map.1 pairs).imp fun {c d} k p v m => k p v ⟨Capture.fills_iff.1 m.1, Capture.fills_iff.1 m.2⟩

theorem writes (h : s.ViewsLawful) {fs : List Field} (w : s.Writes fs t) (v : Field.views ∉ fs := by decide)
    (c : Field.captures ∉ fs := by decide) : t.ViewsLawful := h.congr (w.views v) (by rw [w.captures c])

/-- A view goes to FREE, and no capture fills it any more; every other capture keeps its view (05 R103). -/
theorem release (h : s.ViewsLawful) {p : Port} {v : ViewIx} (views : t.views = (s.freeView p v).views)
    (old : ∀ c ∈ t.captures, c.view ≠ none → c ∈ s.captures) (unfilled : ∀ c ∈ t.captures, ¬ c.fills p v = true)
    (others : ∀ c ∈ s.captures, ¬ c.fills p v = true → c ∈ t.captures) (apart : t.captures.Pairwise FillApart) : t.ViewsLawful := by
  have view : ∀ q w, t.view q w = if q = p ∧ w = v then { s.view p v with state := .free } else s.view q w := fun q w => by
    rw [State.view, views]; exact s.freeView_view p q v w
  have list : ∀ q, (t.views.get q).useList = if q = p then (s.views.get p).useList.erase v else (s.views.get q).useList := fun q => by
    rw [views]
    show ((s.views.set p _).get q).useList = _
    rw [PerPort.get_set]
    split <;> rfl
  refine ⟨fun q w => ?_, fun q => ?_, fun q w x ne => ?_, fun c hc w e => ?_, fun q w e => ?_, apart⟩
  · rw [list, view]
    by_cases hq : q = p
    · subst hq
      rw [if_pos rfl, (h.use_nodup q).mem_erase_iff, h.use_iff]
      by_cases hw : w = v
      · simp [hw]
      · simp [hw]
    · rw [if_neg hq, if_neg fun k => hq k.1, h.use_iff]
  · rw [list]
    split
    · exact (h.use_nodup p).erase v
    · exact h.use_nodup q
  · rw [view, view]
    by_cases hw : q = p ∧ w = v
    · rw [if_pos hw]; exact fun k => absurd rfl k
    · by_cases hx : q = p ∧ x = v
      · rw [if_pos hx]; exact fun _ k => absurd rfl k
      · rw [if_neg hw, if_neg hx]; exact h.unique q w x ne
  · have mem := old c hc (by rw [e]; nofun)
    have ne : ¬(c.port = p ∧ w = v) := fun k => unfilled c hc (Capture.fills_iff.2 ⟨k.1, k.2 ▸ e⟩)
    rw [view, if_neg ne]
    exact h.fills c mem w e
  · rw [view] at e
    split at e
    · cases e
    · next ne =>
      obtain ⟨c, hc, f⟩ := h.capturing q w e
      refine ⟨c, others c hc fun k => ne ?_, f⟩
      rw [Capture.fills_iff] at f k
      exact ⟨f.1.symm.trans k.1, Option.some.inj (f.2.symm.trans k.2)⟩

/-- The one capture that fills a view ends with the view's release. -/
theorem release_erase (h : s.ViewsLawful) {p : Port} {v : ViewIx} {c : Capture} (mem : c ∈ s.captures) (fills : c.fills p v = true)
    (views : t.views = (s.freeView p v).views) (captures : t.captures = s.captures.erase c) : t.ViewsLawful := by
  refine h.release views (fun d hd _ => List.mem_of_mem_erase (captures ▸ hd))
    (fun d hd k => h.apart_erase mem (captures ▸ hd) p v ⟨fills, k⟩) (fun d hd k => ?_)
    (captures ▸ h.distinct.sublist List.erase_sublist)
  rw [captures]
  exact (List.mem_erase_of_ne fun e : d = c => k (e ▸ fills)).2 hd

theorem find_fills {p : Port} {v : ViewIx} {c : Capture} (e : s.captures.find? (fun c => c.fills p v) = some c) :
    c ∈ s.captures ∧ c.fills p v = true := ⟨List.mem_of_find?_eq_some e, by have fills := List.find?_some e; exact fills⟩

theorem freeView (h : s.ViewsLawful) {p : Port} {v : ViewIx} (none : s.captures.find? (fun c => c.fills p v) = none) :
    (s.freeView p v).ViewsLawful :=
  h.release rfl (fun _ hc _ => hc) (fun c hc => List.find?_eq_none.1 none c hc) (fun _ hc _ => hc) h.distinct

theorem unview (h : s.ViewsLawful) (p : Port) (v : ViewIx) :
    ((s.freeView p v).setCaptures (s.captures.map fun x => if x.fills p v then { x with view := none } else x)).ViewsLawful := by
  have fills : ∀ (x : Capture) q w, Capture.fills (if x.fills p v then { x with view := none } else x) q w = true →
      x.fills q w = true ∧ ¬ x.fills p v = true := fun x q w k => by
    split at k
    · rw [Capture.fills_iff] at k; exact nomatch k.2
    · next n => exact ⟨k, n⟩
  have captures : ∀ c ∈ ((s.freeView p v).setCaptures (s.captures.map fun x => if x.fills p v then { x with view := none } else x)).captures,
      ∃ x ∈ s.captures, (if x.fills p v then { x with view := none } else x) = c := fun c hc => List.mem_map.1 hc
  refine h.release rfl (fun c hc n => ?_) (fun c hc k => ?_) (fun c hc n => ?_) ?_
  · obtain ⟨x, hx, rfl⟩ := captures c hc
    split at n
    · exact absurd rfl n
    · next k => rw [if_neg k]; exact hx
  · obtain ⟨x, hx, rfl⟩ := captures c hc
    obtain ⟨k, n⟩ := fills x p v k
    exact n k
  · exact List.mem_map.2 ⟨c, hc, if_neg n⟩
  · exact List.pairwise_map.2 (h.distinct.imp fun {c d} k q w m => k q w ⟨(fills c q w m.1).1, (fills d q w m.2).1⟩)

theorem releaseView (h : s.ViewsLawful) (p : Port) (v : ViewIx) : (s.releaseView p v).ViewsLawful := by
  unfold State.releaseView
  dsimp only
  split
  · next none => exact h.freeView none
  · next c e =>
    obtain ⟨mem, fills⟩ := find_fills e
    split
    · exact h.release_erase mem fills (State.endCapture_outside_views ..).1 (State.endCapture_outside_views ..).2.2.2
    · exact h.release_erase mem fills (State.endCapture_outside_views ..).1 (State.endCapture_outside_views ..).2.2.2
    · exact h.unview p v

/-- A FREE view opens for a record of which its port has no other (05 R85, R87). -/
theorem openView (h : s.ViewsLawful) {p : Port} {v : ViewIx} {r : RegionId} {k : Nat} (free : (s.view p v).state = .free)
    (none : s.viewOf p r k = none) : (s.openView p v r k).ViewsLawful := by
  obtain ⟨x, region, record, view, list, others, state⟩ := s.openView_view p v r k
  generalize s.openView p v r k = t at view list others state
  have open' : x.state ≠ .free := by
    obtain ⟨e, -⟩ | ⟨e, -⟩ := state <;> rw [e] <;> nofun
  have out : v ∉ (s.views.get p).useList := fun m => (h.use_iff p v).1 m free
  have unfilled : ∀ c ∈ s.captures, ¬ c.fills p v = true := fun c hc f => by
    rw [Capture.fills_iff] at f
    have capturing := (h.fills c hc v f.2).1
    rw [f.1, free] at capturing
    cases capturing
  have captures : t.captures = s.captures ∨ ∃ c : Capture, x.state = .capturing ∧ c.view = some v ∧ c.port = p ∧ c.region = r ∧
      c.record = k ∧ t.captures = s.captures ++ [c] := by
    obtain ⟨-, -, e⟩ | ⟨e, c, ev, ep, er, ek, -, -, e'⟩ := state
    · exact .inl e
    · exact .inr ⟨c, e, ev, ep, er, ek, e'⟩
  have old : ∀ c ∈ s.captures, c ∈ t.captures := fun c hc => by
    obtain e | ⟨d, -, -, -, -, -, e⟩ := captures <;> rw [e]
    · exact hc
    · exact List.mem_append_left _ hc
  refine ⟨fun q w => ?_, fun q => ?_, fun q w y ne => ?_, fun c hc w e => ?_, fun q w e => ?_, ?_⟩
  · rw [view]
    by_cases hq : q = p
    · subst hq
      rw [list, List.mem_append, List.mem_singleton, h.use_iff]
      by_cases hw : w = v
      · simp [hw, open']
      · simp [hw]
    · rw [others q hq, if_neg fun k => hq k.1, h.use_iff]
  · by_cases hq : q = p
    · subst hq
      rw [list]
      exact List.nodup_append.2 ⟨h.use_nodup q, List.nodup_singleton v, fun a ha b hb e =>
        out ((e.trans (List.mem_singleton.1 hb)) ▸ ha)⟩
    · rw [others q hq]
      exact h.use_nodup q
  · rw [view, view]
    rw [State.viewOf_eq_none] at none
    by_cases hw : q = p ∧ w = v <;> by_cases hy : q = p ∧ y = v
    · exact absurd (hw.2.trans hy.2.symm) ne
    · rw [if_pos hw, if_neg hy, region, record, hw.1]
      exact fun _ n e => none y n ⟨e.1.symm, e.2.symm⟩
    · rw [if_neg hw, if_pos hy, region, record, hy.1]
      exact fun n _ e => none w n e
    · rw [if_neg hw, if_neg hy]
      exact h.unique q w y ne
  · have was : ∀ c ∈ s.captures, c.view = some w → (t.view c.port w).state = .capturing ∧ (t.view c.port w).region = c.region ∧
        (t.view c.port w).record = c.record := fun c hc e => by
      have ne : ¬(c.port = p ∧ w = v) := fun k => unfilled c hc (Capture.fills_iff.2 ⟨k.1, k.2 ▸ e⟩)
      rw [view, if_neg ne]
      exact h.fills c hc w e
    obtain ec | ⟨d, capturing, ev, ep, er, ek, ec⟩ := captures
    · exact was c (ec ▸ hc) e
    · rw [ec] at hc
      obtain hc | hc := List.mem_append.1 hc
      · exact was c hc e
      · rw [List.mem_singleton.1 hc] at e ⊢
        rw [ep, view, if_pos ⟨rfl, Option.some.inj (e.symm.trans ev)⟩, er, ek]
        exact ⟨capturing, region, record⟩
  · rw [view] at e
    split at e
    · next same =>
      obtain ec | ⟨d, -, ev, ep, -, -, ec⟩ := captures
      · obtain ⟨held, -⟩ | ⟨-, c, -, -, -, -, -, -, ec'⟩ := state
        · rw [held] at e; cases e
        · rw [ec] at ec'; exact absurd (congrArg List.length ec') (by simp)
      · exact ⟨d, by rw [ec]; simp, Capture.fills_iff.2 ⟨ep.trans same.1.symm, same.2 ▸ ev⟩⟩
    · obtain ⟨c, hc, f⟩ := h.capturing q w e
      exact ⟨c, old c hc, f⟩
  · obtain ec | ⟨d, -, ev, ep, -, -, ec⟩ := captures <;> rw [ec]
    · exact h.distinct
    · refine List.pairwise_append.2 ⟨h.distinct, List.pairwise_singleton .., fun c hc y hy q w m => ?_⟩
      obtain ⟨f, g⟩ := m
      rw [List.mem_singleton.1 hy, Capture.fills_iff, ep, ev] at g
      rw [← g.1, ← Option.some.inj g.2] at f
      exact unfilled c hc f

/-- A view moves to the back of its port's use list (05 R98). -/
theorem touch (h : s.ViewsLawful) {p : Port} {v : ViewIx} (open' : (s.view p v).state ≠ .free) :
    (s.setUseList p ((s.views.get p).useList.erase v ++ [v])).ViewsLawful := by
  have view : (s.setUseList p ((s.views.get p).useList.erase v ++ [v])).view = s.view := by
    funext q w
    unfold State.setUseList
    rw [State.setViews_view]
    split
    · next e => rw [e]; rfl
    · rfl
  have list : ∀ q, ((s.setUseList p ((s.views.get p).useList.erase v ++ [v])).views.get q).useList =
      if q = p then (s.views.get p).useList.erase v ++ [v] else (s.views.get q).useList := fun q => by
    show ((s.views.set p _).get q).useList = _
    rw [PerPort.get_set]
    split <;> rfl
  refine ⟨fun q w => ?_, fun q => ?_, ?_, ?_, ?_, h.distinct⟩
  · rw [list, view]
    split
    · next e =>
      rw [e, List.mem_append, List.mem_singleton, (h.use_nodup p).mem_erase_iff, h.use_iff]
      by_cases hw : w = v
      · simp [hw, open']
      · simp [hw]
    · exact h.use_iff q w
  · rw [list]
    split
    · refine List.nodup_append.2 ⟨(h.use_nodup p).erase v, List.nodup_singleton v, fun a ha b hb e => ?_⟩
      rw [List.mem_singleton.1 hb] at e
      exact (h.use_nodup p).not_mem_erase (e ▸ ha)
    · exact h.use_nodup q
  · rw [view]; exact h.unique
  · rw [view]; exact h.fills
  · rw [view]; exact h.capturing

/-- The capture that fills a view ends, and the view goes to HELD (05 R96). -/
theorem fill (h : s.ViewsLawful) {c : Capture} (mem : c ∈ s.captures) {v : ViewIx} (ev : c.view = some v) {x : View}
    (held : x.state = .held) (region : x.region = (s.view c.port v).region) (record : x.record = (s.view c.port v).record) :
    ((s.endCapture c).setView c.port v x).ViewsLawful := by
  obtain ⟨views, -, -, captures⟩ := s.endCapture_outside_views c
  have gone : ((s.endCapture c).setView c.port v x).captures = s.captures.erase c := captures
  have fills : c.fills c.port v = true := Capture.fills_iff.2 ⟨rfl, ev⟩
  have capturing := (h.fills c mem v ev).1
  have view : ∀ q w, ((s.endCapture c).setView c.port v x).view q w = if q = c.port ∧ w = v then x else s.view q w := fun q w => by
    rw [State.setView_view, s.endCapture_view]
  have list : ∀ q, (((s.endCapture c).setView c.port v x).views.get q).useList = (s.views.get q).useList := fun q => by
    show (((s.endCapture c).views.set c.port _).get q).useList = _
    rw [PerPort.get_set, views]
    split
    · next e => rw [e]
    · rfl
  generalize (s.endCapture c).setView c.port v x = t at gone view list
  have others : ∀ d ∈ t.captures, ∀ w, d.view = some w → ¬(d.port = c.port ∧ w = v) := fun d hd w e k =>
    h.apart_erase mem (gone ▸ hd) c.port v ⟨fills, Capture.fills_iff.2 ⟨k.1, k.2 ▸ e⟩⟩
  refine ⟨fun q w => ?_, fun q => list q ▸ h.use_nodup q, fun q w y ne => ?_, fun d hd w e => ?_, fun q w e => ?_,
    gone ▸ h.distinct.sublist List.erase_sublist⟩
  · rw [list, view, h.use_iff]
    split
    · next e => rw [e.1, e.2, held, capturing]; simp
    · rfl
  · have nonfree : ∀ w, (t.view q w).state ≠ .free → (s.view q w).state ≠ .free := fun w n => by
      rw [view] at n
      split at n
      · next e => rw [e.1, e.2, capturing]; nofun
      · exact n
    have same : ∀ w, (t.view q w).region = (s.view q w).region ∧ (t.view q w).record = (s.view q w).record := fun w => by
      rw [view]
      split
      · next e => rw [e.1, e.2]; exact ⟨region, record⟩
      · exact ⟨rfl, rfl⟩
    rw [(same w).1, (same w).2, (same y).1, (same y).2]
    exact fun nw ny => h.unique q w y ne (nonfree w nw) (nonfree y ny)
  · rw [view, if_neg (others d hd w e)]
    exact h.fills d (List.mem_of_mem_erase (gone ▸ hd)) w e
  · rw [view] at e
    split at e
    · rw [held] at e; cases e
    · next ne =>
      obtain ⟨d, hd, f⟩ := h.capturing q w e
      refine ⟨d, ?_, f⟩
      rw [gone]
      refine (List.mem_erase_of_ne fun e => ne ?_).2 hd
      rw [e, Capture.fills_iff] at f
      exact ⟨f.1.symm, Option.some.inj (f.2.symm.trans ev)⟩

/-- A capture without a view ends. -/
theorem endUnviewed (h : s.ViewsLawful) {c : Capture} (ev : c.view = none) : (s.endCapture c).ViewsLawful := by
  obtain ⟨views, -, -, captures⟩ := s.endCapture_outside_views c
  have view : (s.endCapture c).view = s.view := by unfold State.view; rw [views]
  refine ⟨fun q w => ?_, fun q => views ▸ h.use_nodup q, ?_, fun d hd => ?_, fun q w e => ?_, captures ▸ h.distinct.sublist List.erase_sublist⟩
  · rw [view, views]; exact h.use_iff q w
  · rw [view]; exact h.unique
  · rw [view]; exact h.fills d (List.mem_of_mem_erase (captures ▸ hd))
  · rw [view] at e
    obtain ⟨d, hd, f⟩ := h.capturing q w e
    refine ⟨d, ?_, f⟩
    rw [captures]
    refine (List.mem_erase_of_ne fun e => ?_).2 hd
    rw [e, Capture.fills_iff, ev] at f
    exact nomatch f.2

/-- The capture that fills a view ends, and the view is released (05 R102). -/
theorem fail (h : s.ViewsLawful) {c : Capture} (mem : c ∈ s.captures) {v : ViewIx} (ev : c.view = some v) :
    ((s.endCapture c).releaseView c.port v).ViewsLawful := by
  obtain ⟨views, -, -, captures⟩ := s.endCapture_outside_views c
  have fills : c.fills c.port v = true := Capture.fills_iff.2 ⟨rfl, ev⟩
  have none : (s.endCapture c).captures.find? (fun d => d.fills c.port v) = none := by
    rw [captures, List.find?_eq_none]
    exact fun d hd k => h.apart_erase mem hd c.port v ⟨fills, k⟩
  have released : (s.endCapture c).releaseView c.port v = (s.endCapture c).freeView c.port v := by
    unfold State.releaseView
    rw [none]
    rfl
  rw [released]
  refine h.release_erase mem fills ?_ captures
  unfold State.freeView State.view
  rw [views]
  show (s.endCapture c).views.set _ _ = s.views.set _ _
  rw [views]

theorem act {E F G : Prop} (h : s.ViewsLawful) (a : Act E F G s t) : t.ViewsLawful := by
  have keeps : ∀ {f : Capture → Capture}, (∀ c, (f c).target = c.target) → (s.captures.map f).map Capture.target = s.captures.map Capture.target :=
    fun {f} same => by rw [List.map_map]; exact List.map_congr_left fun c _ => same c
  cases a with
  | other w => exact h.writes w
  | mark b => exact h.writes (s.setBuffer_writes ..)
  | stage b k ws _ => exact h.writes (s.setBuffer_writes ..)
  | close b _ => exact h.congr rfl (keeps fun c => by split <;> rfl)
  | free b _ => exact h.writes (s.freeGathering_writes b)
  | opening p x b _ _ _ _ _ => exact h.writes (s.openBuffer_writes ..)
  | openHeld y b _ _ _ => exact h.writes ((s.setPool_writes _).seq (State.openBuffer_writes ..))
  | hold p x ws r rest _ _ _ _ _ _ _ => exact h.writes (s.holdPiece_writes ..)
  | dropHold y => exact h.writes (s.setPool_writes _)
  | dropHolds p => exact h.writes (s.dropHold_writes p)
  | discard => exact h.congr rfl (keeps fun c => rfl)
  | take => exact h.writes s.takeCommit_writes
  | commit job _ _ => exact h.writes ((s.freeCommitted_writes _).seq (State.setEngine_writes ..))
  | engine e _ _ => exact h.writes (s.setEngine_writes e)
  | freeView p v none => exact h.freeView none
  | withdraw p v c e _ =>
    obtain ⟨mem, fills⟩ := find_fills e
    exact h.release_erase mem fills (State.endCapture_outside_views ..).1 (State.endCapture_outside_views ..).2.2.2
  | cancel p v c e _ =>
    obtain ⟨mem, fills⟩ := find_fills e
    exact h.release_erase mem fills (State.endCapture_outside_views ..).1 (State.endCapture_outside_views ..).2.2.2
  | unview p v => exact h.unview p v
  | openView p v r k free none _ => exact h.openView free none
  | touch p v open' => exact h.touch open'
  | endCapture c _ _ ev => exact h.endUnviewed ev
  | fill c v x _ mem ev held region record _ => exact h.fill mem ev held region record
  | fail c v _ mem ev => exact h.fail mem ev
  | relabel l _ keys =>
    have targets := congrArg (List.map Prod.snd) keys
    rw [List.map_map, List.map_map] at targets
    exact h.congr rfl targets
  | serve p v _ _ _ => exact h.writes (s.setService_writes p v)
  | request p q n x w _ _ _ => exact h.writes ((s.setPlainRequest_writes ..).seq (State.awaitPiece_writes ..))
  | respond p r rest _ _ => exact h.writes (s.respond_writes ..)
  | endHeld p n st _ _ => exact h.writes (s.finishPiece_writes ..)
  | memory _ w => exact h.writes w
  | loose _ _ w => exact h.writes w

end State.ViewsLawful

theorem State.hardReset_view (s : State) (p : Port) (v : ViewIx) : (s.hardReset.view p v).state = .free := by
  show (State.reset.view p v).state = .free
  cases p <;> revert v <;> decide

theorem State.hardReset_viewsLawful (s : State) : s.hardReset.ViewsLawful := by
  have none : ∀ p, (s.hardReset.views.get p).useList = [] := fun p => by cases p <;> rfl
  refine ⟨fun p v => ?_, fun p => ?_, fun p v w _ n => absurd (s.hardReset_view p v) n, nofun, fun p v e => ?_, .nil⟩
  · rw [none, s.hardReset_view]; simp
  · rw [none]; exact List.nodup_nil
  · rw [s.hardReset_view] at e; cases e

theorem State.viewsLawful_kept : Kept State.ViewsLawful :=
  .of_acts (E := False) (fun _ _ => False.elim) (fun _ _ a h => h.act a) (fun _ _ w h => h.writes w) fun s => s.hardReset_viewsLawful

end Sys2Proof.Machine

/-! SUPPORT. The memory port and its requesters' owners agree, through every part of a step (06 R109; 04 R68, R75; 05 R94, R95). -/

namespace Sys2Proof.Machine

/-- The agreement of the memory port and the owners (06 R109), but for the plain requests of these ports. -/
structure State.OwnersBut (e : Port → Prop) (s : State) : Prop where
  commitPending : s.mem.commit ≠ none → ∃ job, s.engine = .requesting job
  requesting : ∀ job, s.engine = .requesting job →
    job.answers = List.replicate job.words.length .unanswered ∧ ∃ a, s.mem.commit = some (.write a job.words)
  writing : ∀ job, s.engine = .writing job → ∃ tr, s.mem.outstanding = some tr ∧ tr.requester = .commit ∧ job.answers = tr.answers
  commitOut : ∀ tr, s.mem.outstanding = some tr → tr.requester = .commit → tr.discard = false ∧ ∃ job, s.engine = .writing job
  behind : ∀ c ∈ s.captures.tail, c.state = .queued
  captureRequesting : ∀ c ∈ s.captures, c.state = .requesting →
    c.answers = List.replicate c.count .unanswered ∧ ∃ a, s.mem.capture = some (.read a c.count)
  capturePending : s.mem.capture ≠ none → ∃ c ∈ s.captures, c.state = .requesting
  captureReading : ∀ c ∈ s.captures, c.state = .reading →
    ∃ tr, s.mem.outstanding = some tr ∧ tr.requester = .capture ∧ c.answers = tr.answers
  captureOut : ∀ tr, s.mem.outstanding = some tr → tr.requester = .capture →
    tr.discard = false ∧ ∃ c ∈ s.captures, c.state = .reading
  plainPending : ∀ p, ¬ e p → s.mem.plain.get p ≠ none → s.AwaitsMemory p
  plainOut : ∀ tr p, ¬ e p → s.mem.outstanding = some tr → tr.requester = .plain p → tr.discard = false →
    s.AwaitsMemory p ∧ s.mem.plain.get p = none

theorem State.ownersLawful_iff (s : State) : s.OwnersLawful ↔ s.OwnersBut fun _ => False :=
  ⟨fun h => ⟨h.commitPending, h.requesting, h.writing, h.commitOut, h.behind, h.captureRequesting, h.capturePending, h.captureReading,
      h.captureOut, fun p _ => h.plainPending p, fun tr p _ => h.plainOut tr p⟩,
    fun h => ⟨h.commitPending, h.requesting, h.writing, h.commitOut, h.behind, h.captureRequesting, h.capturePending, h.captureReading,
      h.captureOut, fun p => h.plainPending p id, fun tr p => h.plainOut tr p id⟩⟩

/-- What the memory port's side reads of a capture: its state, its words' number and its answers. -/
def Capture.burst (c : Capture) : CaptureState × Nat × List Answer := (c.state, c.count, c.answers)

theorem State.awaitsMemory_port {s t : State} {p : Port} (h : t.port p = s.port p) : t.AwaitsMemory p ↔ s.AwaitsMemory p := by
  unfold State.AwaitsMemory
  rw [h]

theorem State.awaitsMemory_setPort {s : State} {p : Port} {x : PortState} (h : x.service = (s.port p).service) :
    (s.setPort p x).AwaitsMemory p ↔ s.AwaitsMemory p := by
  unfold State.AwaitsMemory
  rw [State.setPort_port, if_pos rfl, h]

/-- The view store's piece does not wait for the memory port (02 R28). -/
theorem State.Servable.not_awaits {s : State} {p : Port} (h : s.Servable True p) : ¬ s.AwaitsMemory p := by
  rintro ⟨x, piece, w⟩
  obtain ⟨-, view⟩ := h x piece
  obtain w | ⟨snap, w⟩ := w <;> obtain v | ⟨v, e⟩ := view trivial
  · rw [w] at v; cases v
  · rw [w] at e; cases e
  · rw [w] at v; cases v
  · rw [w] at e; cases e

theorem State.tellGrant_commit {s : State} {job : CommitJob} (h : s.engine = .requesting job) :
    s.tellGrant .commit = s.setEngine (.writing job) := by
  unfold State.tellGrant
  rw [h]

theorem State.tellGrant_capture {s : State} {c : Capture} {l : List Capture} (h : s.captures = c :: l) :
    s.tellGrant .capture = s.setCaptures ({ c with state := .reading } :: l) := by
  unfold State.tellGrant
  rw [h]

namespace State.OwnersBut

variable {e : Port → Prop} {s t : State}

theorem congr (h : s.OwnersBut e) (engine : t.engine = s.engine) (commit : t.mem.commit = s.mem.commit)
    (capture : t.mem.capture = s.mem.capture) (outstanding : t.mem.outstanding = s.mem.outstanding)
    (bursts : t.captures.map Capture.burst = s.captures.map Capture.burst) (plain : t.mem.plain = s.mem.plain)
    (awaits : ∀ p, ¬ e p → s.AwaitsMemory p → t.AwaitsMemory p) : t.OwnersBut e := by
  have fields : ∀ {c d : Capture}, c.burst = d.burst → c.state = d.state ∧ c.count = d.count ∧ c.answers = d.answers :=
    fun e => by simpa [Capture.burst] using e
  have old : ∀ c ∈ t.captures, ∃ d ∈ s.captures, d.burst = c.burst := fun c hc => List.mem_map.1 (bursts ▸ List.mem_map_of_mem hc)
  have new : ∀ c ∈ s.captures, ∃ d ∈ t.captures, d.burst = c.burst := fun c hc =>
    List.mem_map.1 (bursts.symm ▸ List.mem_map_of_mem hc)
  have tails : t.captures.tail.map Capture.burst = s.captures.tail.map Capture.burst := by rw [List.map_tail, bursts, List.map_tail]
  refine ⟨?_, ?_, ?_, ?_, fun c hc => ?_, fun c hc st => ?_, fun n => ?_, fun c hc st => ?_, fun tr o q => ?_, fun p n k => ?_,
    fun tr p n o q d => ?_⟩
  · rw [commit, engine]; exact h.commitPending
  · rw [commit, engine]; exact h.requesting
  · rw [outstanding, engine]; exact h.writing
  · rw [outstanding, engine]; exact h.commitOut
  · obtain ⟨d, hd, same⟩ := List.mem_map.1 (tails ▸ List.mem_map_of_mem (f := Capture.burst) hc)
    exact (fields same).1.symm.trans (h.behind d hd)
  · obtain ⟨d, hd, same⟩ := old c hc
    obtain ⟨es, ec, ea⟩ := fields same
    rw [capture, ← ec, ← ea]
    exact h.captureRequesting d hd (es.trans st)
  · obtain ⟨c, hc, st⟩ := h.capturePending (capture ▸ n)
    obtain ⟨d, hd, same⟩ := new c hc
    exact ⟨d, hd, (fields same).1.trans st⟩
  · obtain ⟨d, hd, same⟩ := old c hc
    obtain ⟨es, -, ea⟩ := fields same
    rw [outstanding, ← ea]
    exact h.captureReading d hd (es.trans st)
  · obtain ⟨discard, c, hc, st⟩ := h.captureOut tr (outstanding ▸ o) q
    obtain ⟨d, hd, same⟩ := new c hc
    exact ⟨discard, d, hd, (fields same).1.trans st⟩
  · exact awaits p n (h.plainPending p n (plain ▸ k))
  · obtain ⟨a, none⟩ := h.plainOut tr p n (outstanding ▸ o) q d
    exact ⟨awaits p n a, plain ▸ none⟩

theorem writes (h : s.OwnersBut e) {fs : List Field} (w : s.Writes fs t) (n1 : Field.engine ∉ fs := by decide)
    (n2 : Field.commit ∉ fs := by decide) (n3 : Field.capture ∉ fs := by decide) (n4 : Field.outstanding ∉ fs := by decide)
    (n5 : Field.captures ∉ fs := by decide) (n6 : Field.plain ∉ fs := by decide) (n7 : Field.ports ∉ fs := by decide) :
    t.OwnersBut e :=
  h.congr (w.engine n1) (w.commit n2) (w.capture n3) (w.outstanding n4) (by rw [w.captures n5]) (w.plain n6) fun p _ =>
    (State.awaitsMemory_port (State.port_of_ports (w.ports n7) p)).2

/-- A port changes whose piece, if it waited for the memory port, waits on. -/
theorem setPort (h : s.OwnersBut e) {p : Port} (x : PortState) (awaits : ¬ e p → s.AwaitsMemory p → (s.setPort p x).AwaitsMemory p) :
    (s.setPort p x).OwnersBut e := by
  refine h.congr rfl rfl rfl rfl rfl rfl fun q n a => ?_
  by_cases hq : q = p
  · subst hq; exact awaits n a
  · exact (State.awaitsMemory_port (by rw [State.setPort_port, if_neg hq])).2 a

/-- A port goes on whose piece is not the memory port's. -/
theorem serve (h : s.OwnersBut e) {p : Port} (free : ¬ s.AwaitsMemory p) (x : PortState) : (s.setPort p x).OwnersBut e :=
  h.setPort x fun _ a => absurd a free

/-- A piece that is not the memory port's becomes so, with its request (06 R109). -/
theorem request (h : s.OwnersBut e) {p : Port} (free : ¬ s.AwaitsMemory p) (q : MemRequest) (n : Nat) (x : Option Spot) {w : Wait}
    (memory : w.OfMemory) : ((s.setPlainRequest p (some q)).awaitPiece p n x w).OwnersBut e := by
  have port : ∀ r, ((s.setPlainRequest p (some q)).awaitPiece p n x w).port r =
      if r = p then { s.port p with service := { (s.port p).service with piece := some ⟨n, x, w⟩ } } else s.port r :=
    fun r => (s.setPlainRequest p (some q)).setService_port p r _
  have plain : ∀ r, ((s.setPlainRequest p (some q)).awaitPiece p n x w).mem.plain.get r =
      if r = p then some q else s.mem.plain.get r := fun r => PerPort.get_set ..
  have others : ∀ r, r ≠ p → (((s.setPlainRequest p (some q)).awaitPiece p n x w).AwaitsMemory r ↔ s.AwaitsMemory r) := fun r ne =>
    State.awaitsMemory_port (by rw [port, if_neg ne])
  refine ⟨h.commitPending, h.requesting, h.writing, h.commitOut, h.behind, h.captureRequesting, h.capturePending, h.captureReading,
    h.captureOut, fun r n k => ?_, fun tr r n o rq d => ?_⟩
  · by_cases hr : r = p
    · subst hr
      exact ⟨⟨_, _, w⟩, by rw [port, if_pos rfl], memory⟩
    · rw [plain, if_neg hr] at k
      exact (others r hr).2 (h.plainPending r n k)
  · obtain ⟨a, none⟩ := h.plainOut tr r n o rq d
    have hr : r ≠ p := fun e => free (e ▸ a)
    exact ⟨(others r hr).2 a, by rw [plain, if_neg hr]; exact none⟩

/-- A QUEUED capture leaves the queue. -/
theorem withdraw (h : s.OwnersBut e) {c : Capture} (queued : c.state = .queued) : (s.setCaptures (s.captures.erase c)).OwnersBut e := by
  have kept : ∀ d ∈ s.captures, d.state ≠ .queued → d ∈ s.captures.erase c := fun d hd n =>
    (List.mem_erase_of_ne fun e : d = c => n (e ▸ queued)).2 hd
  refine ⟨h.commitPending, h.requesting, h.writing, h.commitOut, fun d hd => ?_,
    fun d hd => h.captureRequesting d (List.mem_of_mem_erase hd), fun n => ?_, fun d hd => h.captureReading d (List.mem_of_mem_erase hd),
    fun tr o q => ?_, h.plainPending, h.plainOut⟩
  · have hd : d ∈ (s.captures.erase c).tail := hd
    have behind := h.behind
    cases captures : s.captures with
    | nil => rw [captures] at hd; cases hd
    | cons a l =>
      rw [captures] at hd behind
      rw [List.erase_cons] at hd
      split at hd
      · exact behind d (List.mem_of_mem_tail hd)
      · exact behind d (List.mem_of_mem_erase hd)
  · obtain ⟨d, hd, st⟩ := h.capturePending n
    exact ⟨d, kept d hd (by rw [st]; nofun), st⟩
  · obtain ⟨discard, d, hd, st⟩ := h.captureOut tr o q
    exact ⟨discard, d, kept d hd (by rw [st]; nofun), st⟩

/-- A capture that is not QUEUED is at the front, and the others are QUEUED (05 R94). -/
theorem front (h : s.OwnersBut e) {c : Capture} (mem : c ∈ s.captures) (n : c.state ≠ .queued) :
    ∃ l, s.captures = c :: l ∧ ∀ d ∈ l, d.state = .queued := by
  have behind := h.behind
  cases captures : s.captures with
  | nil => rw [captures] at mem; cases mem
  | cons a l =>
    rw [captures] at mem behind
    obtain rfl | m := List.mem_cons.1 mem
    · exact ⟨l, rfl, behind⟩
    · exact absurd (behind c m) n

/-- The capture in REQUESTING leaves the queue, and its request is withdrawn (06 R119). -/
theorem cancel (h : s.OwnersBut e) {c : Capture} (mem : c ∈ s.captures) (requesting : c.state = .requesting) :
    ((s.setCaptureRequest none).setCaptures (s.captures.erase c)).OwnersBut e := by
  obtain ⟨l, captures, queued⟩ := h.front mem (by rw [requesting]; nofun)
  have rest : s.captures.erase c = l := by rw [captures, List.erase_cons_head]
  rw [rest]
  have idle : ∀ d ∈ l, d.state ≠ .requesting ∧ d.state ≠ .reading := fun d hd => by
    rw [queued d hd]; exact ⟨nofun, nofun⟩
  refine ⟨h.commitPending, h.requesting, h.writing, h.commitOut, fun d hd => queued d (List.mem_of_mem_tail hd),
    fun d hd st => absurd st (idle d hd).1, fun n => absurd rfl n, fun d hd st => absurd st (idle d hd).2, fun tr o q => ?_,
    h.plainPending, h.plainOut⟩
  obtain ⟨-, d, hd, st⟩ := h.captureOut tr o q
  rw [captures] at hd
  obtain rfl | hd := List.mem_cons.1 hd
  · rw [requesting] at st; cases st
  · exact absurd st (idle d hd).2

/-- A QUEUED capture joins the queue (05 R90). -/
theorem enqueue (h : s.OwnersBut e) {c : Capture} (queued : c.state = .queued) : (s.setCaptures (s.captures ++ [c])).OwnersBut e := by
  have mem : ∀ {d}, d ∈ s.captures ++ [c] → d.state ≠ .queued → d ∈ s.captures := fun {d} hd n => by
    obtain hd | hd := List.mem_append.1 hd
    · exact hd
    · exact absurd ((List.mem_singleton.1 hd) ▸ queued) n
  refine ⟨h.commitPending, h.requesting, h.writing, h.commitOut, fun d hd => ?_,
    fun d hd st => h.captureRequesting d (mem hd (by rw [st]; nofun)) st, fun n => ?_,
    fun d hd st => h.captureReading d (mem hd (by rw [st]; nofun)) st, fun tr o q => ?_, h.plainPending, h.plainOut⟩
  · have hd : d ∈ (s.captures ++ [c]).tail := hd
    have behind := h.behind
    cases captures : s.captures with
    | nil => rw [captures] at hd; cases hd
    | cons a l =>
      rw [captures] at hd behind
      obtain hd | hd := List.mem_append.1 hd
      · exact behind d hd
      · exact (List.mem_singleton.1 hd) ▸ queued
  · obtain ⟨d, hd, st⟩ := h.capturePending n
    exact ⟨d, List.mem_append_left _ hd, st⟩
  · obtain ⟨discard, d, hd, st⟩ := h.captureOut tr o q
    exact ⟨discard, d, List.mem_append_left _ hd, st⟩

/-- The end of a capture lowers wait counts besides. -/
theorem of_endCapture {c : Capture} (h : (s.setCaptures (s.captures.erase c)).OwnersBut e) : (s.endCapture c).OwnersBut e :=
  h.writes (State.lowerWaits_writes ..)

theorem takeCommit (h : s.OwnersBut e) : s.takeCommit.OwnersBut e := by
  obtain eq | ⟨b, job, idle, -, -, answers, eq⟩ := s.takeCommit_cases <;> rw [eq]
  · exact h
  · refine ⟨fun _ => ⟨job, rfl⟩, fun job' q => ?_, nofun, fun tr o q => ?_, h.behind, h.captureRequesting, h.capturePending,
      h.captureReading, h.captureOut, h.plainPending, h.plainOut⟩
    · cases q
      exact ⟨answers, _, rfl⟩
    · obtain ⟨-, job, w⟩ := h.commitOut tr o q
      rw [idle] at w
      cases w

theorem act {E F : Prop} (f : F) (h : s.OwnersBut e) (a : Act E F True s t) : t.OwnersBut e := by
  have keeps : ∀ {g : Capture → Capture}, (∀ c, (g c).burst = c.burst) → (s.captures.map g).map Capture.burst = s.captures.map Capture.burst :=
    fun {g} same => by rw [List.map_map]; exact List.map_congr_left fun c _ => same c
  cases a with
  | other w => exact h.writes w
  | mark b => exact h.writes (s.setBuffer_writes ..)
  | stage b k ws _ => exact h.writes (s.setBuffer_writes ..)
  | close b _ => exact h.congr rfl rfl rfl rfl (keeps fun c => by split <;> rfl) rfl fun _ _ => id
  | free b _ => exact h.writes (s.freeGathering_writes b)
  | opening p x b _ _ _ _ _ => exact h.writes (s.openBuffer_writes ..)
  | openHeld y b _ _ _ => exact h.writes ((s.setPool_writes _).seq (State.openBuffer_writes ..))
  | hold p x ws r rest _ _ servable _ _ _ _ =>
    exact State.OwnersBut.serve (s := s.setPool { s.pool with holds := s.pool.holds ++ [⟨p, x, ws, s.timebase⟩] })
      (h.writes (s.setPool_writes _)) servable.not_awaits _
  | dropHold y => exact h.writes (s.setPool_writes _)
  | dropHolds p => exact h.writes (s.dropHold_writes p)
  | discard => exact h.congr rfl rfl rfl rfl (keeps fun c => rfl) rfl fun _ _ => id
  | take => exact h.takeCommit
  | commit job n _ => exact absurd trivial n
  | engine x n _ => exact absurd trivial n
  | freeView p v none => exact h.writes (s.freeView_writes p v)
  | withdraw p v c _ queued =>
    exact of_endCapture (State.OwnersBut.withdraw (s := s.freeView p v) (h.writes (s.freeView_writes p v)) queued)
  | cancel p v c find requesting =>
    exact of_endCapture (State.OwnersBut.cancel (s := s.freeView p v) (h.writes (s.freeView_writes p v))
      (List.mem_of_find?_eq_some find) requesting)
  | unview p v => exact h.congr rfl rfl rfl rfl (keeps fun c => by split <;> rfl) rfl fun _ _ => id
  | openView p v r k _ _ _ =>
    have w := s.openView_writes p v r k
    obtain ⟨x, -, -, -, -, -, ⟨-, -, captures⟩ | ⟨-, c, -, -, -, -, -, queued, captures⟩⟩ := s.openView_view p v r k
    · exact h.congr w.engine w.commit w.capture w.outstanding (by rw [captures]) w.plain fun p _ =>
        (State.awaitsMemory_port (State.port_of_ports w.ports p)).2
    · exact (h.enqueue queued).congr w.engine w.commit w.capture w.outstanding (by rw [captures]; rfl) w.plain fun p _ =>
        (State.awaitsMemory_port (State.port_of_ports w.ports p)).2
  | touch p v _ => exact h.writes (s.setViews_writes ..)
  | endCapture c n _ _ => exact absurd trivial n
  | fill c v x n _ _ _ _ _ _ => exact absurd trivial n
  | fail c v n _ _ => exact absurd trivial n
  | relabel l n _ => exact absurd trivial n
  | serve p v servable _ _ => exact h.serve servable.not_awaits _
  | request p q n x w servable _ memory => exact h.request servable.not_awaits q n x memory
  | respond p r rest servable _ => exact h.serve servable.not_awaits _
  | endHeld p n st _ held =>
    refine h.serve ?_ _
    obtain ⟨x, piece, w⟩ := held f
    rintro ⟨y, piece', w'⟩
    rw [piece] at piece'
    cases piece'
    rw [w] at w'
    obtain w' | ⟨snap, w'⟩ := w' <;> cases w'
  | memory n _ => exact absurd trivial n
  | loose n _ _ => exact absurd f n

theorem acts {E F : Prop} (f : F) (h : s.OwnersBut e) (q : Acts E F True s t) : t.OwnersBut e := q.keeps (fun _ _ a h => h.act f a) h

/-! ### The memory port's own steps (06) -/

/-- The answers of the outstanding transaction change, and its owner's with them (06 R113). -/
theorem recordAnswers (h : s.OwnersBut e) {tr : Transaction} (out : s.mem.outstanding = some tr) (f : List Answer → List Answer) :
    (s.recordAnswers tr f).OwnersBut e := by
  have mem := s.recordAnswers_mem tr f
  have w := s.recordAnswers_writes tr f
  have awaits : ∀ p, (s.recordAnswers tr f).AwaitsMemory p ↔ s.AwaitsMemory p := fun p =>
    State.awaitsMemory_port (State.port_of_ports w.ports p)
  have plain : ∀ p, ¬ e p → (s.recordAnswers tr f).mem.plain.get p ≠ none → (s.recordAnswers tr f).AwaitsMemory p := fun p n k =>
    (awaits p).2 (h.plainPending p n (w.plain ▸ k))
  have plainOut : ∀ tr' p, ¬ e p → (s.recordAnswers tr f).mem.outstanding = some tr' → tr'.requester = .plain p → tr'.discard = false →
      (s.recordAnswers tr f).AwaitsMemory p ∧ (s.recordAnswers tr f).mem.plain.get p = none := fun tr' p n o q d => by
    rw [mem] at o
    cases o
    obtain ⟨a, none⟩ := h.plainOut tr p n out q d
    exact ⟨(awaits p).2 a, by rw [w.plain]; exact none⟩
  have own : ∀ tr', s.mem.outstanding = some tr' → tr' = tr := fun tr' o => Option.some.inj (o.symm.trans out)
  cases q : tr.requester with
  | plain p =>
    have same := s.recordAnswers_plain tr f q
    have writing : ∀ job, s.engine ≠ .writing job := fun job k => by
      obtain ⟨tr', o, q', -⟩ := h.writing job k
      rw [own tr' o, q] at q'
      cases q'
    have reading : ∀ c ∈ s.captures, c.state ≠ .reading := fun c hc k => by
      obtain ⟨tr', o, q', -⟩ := h.captureReading c hc k
      rw [own tr' o, q] at q'
      cases q'
    rw [same] at plain plainOut ⊢
    refine ⟨h.commitPending, h.requesting, fun job k => absurd k (writing job), fun tr' o q' => ?_, h.behind, h.captureRequesting,
      h.capturePending, fun c hc k => absurd k (reading c hc), fun tr' o q' => ?_, plain, plainOut⟩
    · cases o; rw [q] at q'; cases q'
    · cases o; rw [q] at q'; cases q'
  | commit =>
    obtain ⟨keep, job, writing⟩ := h.commitOut tr out q
    have engine := s.recordAnswers_commit tr f q keep writing
    have captures : (s.recordAnswers tr f).captures = s.captures := by
      rw [s.recordAnswers_kept tr f keep]
      refine (congrArg (fun q => (State.handOn _ q f).captures) q).trans ?_
      exact (congrArg State.captures (State.handOn_commit (s.withOutstanding { tr with answers := f tr.answers }) f writing)).trans rfl
    have reading : ∀ c ∈ s.captures, c.state ≠ .reading := fun c hc k => by
      obtain ⟨tr', o, q', -⟩ := h.captureReading c hc k
      rw [own tr' o, q] at q'
      cases q'
    refine ⟨fun n => ?_, fun job' k => ?_, fun job' k => ?_, fun tr' o q' => ?_, fun c hc => h.behind c (captures ▸ hc),
      fun c hc k => ?_, fun n => ?_, fun c hc k => absurd k (reading c (captures ▸ hc)), fun tr' o q' => ?_, plain, plainOut⟩
    · obtain ⟨job', k⟩ := h.commitPending (w.commit ▸ n)
      rw [writing] at k
      cases k
    · rw [engine] at k; cases k
    · rw [engine] at k
      cases k
      obtain ⟨tr', o, q', answers⟩ := h.writing job writing
      rw [own tr' o] at answers
      exact ⟨_, congrArg MemPort.outstanding mem, q, congrArg f answers⟩
    · rw [mem] at o
      cases o
      exact ⟨keep, _, engine⟩
    · rw [w.capture]; exact h.captureRequesting c (captures ▸ hc) k
    · rw [captures]; exact h.capturePending (w.capture ▸ n)
    · rw [mem] at o
      cases o
      rw [q] at q'
      cases q'
  | capture =>
    obtain ⟨keep, c, hc, reading⟩ := h.captureOut tr out q
    obtain ⟨l, front, queued⟩ := h.front hc (by rw [reading]; nofun)
    have captures := s.recordAnswers_capture tr f q keep front
    have engine : (s.recordAnswers tr f).engine = s.engine := by
      rw [s.recordAnswers_kept tr f keep]
      refine (congrArg (fun q => (State.handOn _ q f).engine) q).trans ?_
      exact (congrArg State.engine (State.handOn_capture (s.withOutstanding { tr with answers := f tr.answers }) f front)).trans rfl
    have writing : ∀ job, s.engine ≠ .writing job := fun job k => by
      obtain ⟨tr', o, q', -⟩ := h.writing job k
      rw [own tr' o, q] at q'
      cases q'
    have only : ∀ d ∈ (s.recordAnswers tr f).captures, d.state ≠ .queued → d = { c with answers := f c.answers } := fun d hd n => by
      rw [captures] at hd
      obtain e | hd := List.mem_cons.1 hd
      · exact e
      · exact absurd (queued d hd) n
    refine ⟨fun n => ?_, fun job k => ?_, fun job k => absurd (engine ▸ k) (writing job), fun tr' o q' => ?_, fun d hd => ?_,
      fun d hd k => ?_, fun n => ?_, fun d hd k => ?_, fun tr' o _ => ?_, plain, plainOut⟩
    · rw [engine]; exact h.commitPending (w.commit ▸ n)
    · rw [w.commit]; exact h.requesting job (engine ▸ k)
    · rw [mem] at o
      cases o
      rw [q] at q'
      cases q'
    · rw [captures] at hd
      exact queued d hd
    · rw [only d hd (by rw [k]; nofun)] at k
      rw [reading] at k
      cases k
    · obtain ⟨d, hd, k⟩ := h.capturePending (w.capture ▸ n)
      rw [front] at hd
      obtain rfl | hd := List.mem_cons.1 hd
      · rw [reading] at k; cases k
      · rw [queued d hd] at k; cases k
    · rw [only d hd (by rw [k]; nofun)]
      obtain ⟨tr', o, -, answers⟩ := h.captureReading c hc reading
      rw [own tr' o] at answers
      exact ⟨_, congrArg MemPort.outstanding mem, q, congrArg f answers⟩
    · rw [mem] at o
      cases o
      exact ⟨keep, { c with answers := f c.answers }, by rw [captures]; exact List.mem_cons_self, reading⟩

/-- Where the outstanding transaction is not its own, the engine is not WRITING. -/
theorem not_writing (h : s.OwnersBut e) {tr : Transaction} (out : s.mem.outstanding = some tr) (other : tr.requester ≠ .commit)
    (job : CommitJob) : s.engine ≠ .writing job := fun w => by
  obtain ⟨tr', o, q, -⟩ := h.writing job w
  exact other (Option.some.inj (o.symm.trans out) ▸ q)

theorem not_reading (h : s.OwnersBut e) {tr : Transaction} (out : s.mem.outstanding = some tr) (other : tr.requester ≠ .capture) :
    ∀ c ∈ s.captures, c.state ≠ .reading := fun c hc w => by
  obtain ⟨tr', o, q, -⟩ := h.captureReading c hc w
  exact other (Option.some.inj (o.symm.trans out) ▸ q)

/-- The end of a transaction that is neither engine's. -/
theorem idle (h : s.OwnersBut e) {tr : Transaction} (out : s.mem.outstanding = some tr) (commit : tr.requester ≠ .commit)
    (capture : tr.requester ≠ .capture) : s.idlePort.OwnersBut e :=
  ⟨h.commitPending, h.requesting, fun job w => absurd w (h.not_writing out commit job), nofun, h.behind, h.captureRequesting,
    h.capturePending, fun c hc w => absurd w (h.not_reading out capture c hc), nofun, h.plainPending, nofun⟩

/-- The piece whose transaction has ended is answered, and nothing is pending for its port (06 R116). -/
theorem endPlain (h : s.OwnersBut e) (p : Port) (none : ¬ e p → s.mem.plain.get p = none) (idle : s.mem.outstanding = Option.none)
    (as : List Answer) : (s.endPlain p as).OwnersBut e := by
  have finished : ∀ n st ws, (s.finishPiece p n st ws).OwnersBut e := fun n st ws => by
    have out : (s.finishPiece p n st ws).mem.outstanding = Option.none := idle
    refine ⟨h.commitPending, h.requesting, h.writing, h.commitOut, h.behind, h.captureRequesting, h.capturePending, h.captureReading,
      h.captureOut, fun q n k => ?_, fun tr q _ o => nomatch out.symm.trans o⟩
    have ne : q ≠ p := fun e => k (e ▸ none (e ▸ n))
    exact (State.awaitsMemory_port (by rw [State.finishPiece, State.setService_port, if_neg ne])).2 (h.plainPending q n k)
  unfold State.endPlain
  split
  · exact h
  · split
    · exact finished ..
    · exact finished ..
    all_goals exact h

/-- The end of the commit engine's transaction: its engine is IDLE (04 R79). -/
theorem commitEnded (h : s.OwnersBut e) {tr : Transaction} (out : s.mem.outstanding = some tr) (q : tr.requester = .commit)
    {job : CommitJob} (writing : s.engine = .writing job) : (s.idlePort.freedCommit job).OwnersBut e := by
  have w := s.idlePort.freedCommit_writes job
  have engine : (s.idlePort.freedCommit job).engine = .idle := rfl
  have commit : s.mem.commit = none := by
    by_contra n
    obtain ⟨job', k⟩ := h.commitPending n
    rw [writing] at k
    cases k
  have awaits : ∀ p, (s.idlePort.freedCommit job).AwaitsMemory p ↔ s.AwaitsMemory p := fun p =>
    State.awaitsMemory_port (State.port_of_ports w.ports p)
  have outstanding : (s.idlePort.freedCommit job).mem.outstanding = none := w.outstanding
  have pending : (s.idlePort.freedCommit job).mem.commit = none := w.commit.trans commit
  have capture : (s.idlePort.freedCommit job).mem.capture = s.mem.capture := w.capture
  have captures : (s.idlePort.freedCommit job).captures = s.captures := w.captures
  have plain : (s.idlePort.freedCommit job).mem.plain = s.mem.plain := w.plain
  generalize s.idlePort.freedCommit job = t at engine awaits outstanding pending capture captures plain
  have out' : ∀ tr, t.mem.outstanding ≠ some tr := by rw [outstanding]; nofun
  refine ⟨fun n => absurd pending n, by rw [engine]; nofun, by rw [engine]; nofun, fun tr o => absurd o (out' tr), ?_, fun c hc k => ?_,
    fun n => ?_, fun c hc k => ?_, fun tr o => absurd o (out' tr), fun p n k => (awaits p).2 (h.plainPending p n (plain ▸ k)),
    fun tr p _ o => absurd o (out' tr)⟩
  · rw [captures]; exact h.behind
  · rw [captures] at hc; rw [capture]; exact h.captureRequesting c hc k
  · rw [captures]; exact h.capturePending (capture ▸ n)
  · rw [captures] at hc
    exact absurd k (h.not_reading out (by rw [q]; nofun) c hc)

/-- The end of the capture engine's transaction: the capture in READING leaves the queue (05 R96). -/
theorem captureEnded (h : s.OwnersBut e) {tr : Transaction} (out : s.mem.outstanding = some tr) (q : tr.requester = .capture)
    {c : Capture} (mem : c ∈ s.captures) (reading : c.state = .reading) : (s.idlePort.endCapture c).OwnersBut e := by
  obtain ⟨l, captures, queued⟩ := h.front mem (by rw [reading]; nofun)
  have rest : s.captures.erase c = l := by rw [captures, List.erase_cons_head]
  have capture : s.mem.capture = none := by
    by_contra n
    obtain ⟨d, hd, k⟩ := h.capturePending n
    rw [captures] at hd
    obtain rfl | hd := List.mem_cons.1 hd
    · rw [reading] at k; cases k
    · rw [queued d hd] at k; cases k
  have idle : ∀ d ∈ l, d.state ≠ .requesting ∧ d.state ≠ .reading := fun d hd => by
    rw [queued d hd]; exact ⟨nofun, nofun⟩
  refine of_endCapture (s := s.idlePort) ?_
  show (s.idlePort.setCaptures (s.captures.erase c)).OwnersBut e
  rw [rest]
  exact ⟨h.commitPending, h.requesting, fun job w => absurd w (h.not_writing out (by rw [q]; nofun) job), nofun,
    fun d hd => queued d (List.mem_of_mem_tail hd), fun d hd k => absurd k (idle d hd).1, fun n => absurd capture n,
    fun d hd k => absurd k (idle d hd).2, nofun, h.plainPending, nofun⟩

/-- What a capture's end does with its view and the piece that waits on it (05 R96, R102). -/
theorem endRead (h : s.OwnersBut e) (f : s.PortsLawful) {tr : Transaction} (out : s.mem.outstanding = some tr)
    (q : tr.requester = .capture) : s.idlePort.endRead.OwnersBut e := by
  obtain ⟨-, c, hc, reading⟩ := h.captureOut tr out q
  obtain ⟨l, captures, -⟩ := h.front hc (by rw [reading]; nofun)
  have mem : c ∈ s.idlePort.captures := hc
  have lawful : s.idlePort.PortsLawful := f.writes s.idlePort_writes
  have ended := h.captureEnded out q hc reading
  have read : s.idlePort.endRead = (if c.answers.any Answer.isFault then s.idlePort.faultCapture c else
      s.idlePort.completeCapture c).mapExecuting Executing.afterCapture := by
    unfold State.endRead
    rw [show s.idlePort.captures = c :: l from captures]
  have ready : ∀ {t}, Act False True False s.idlePort t → Ready False True t := fun a => ⟨False.elim, fun f' => lawful.act f' a⟩
  rw [read]
  refine State.OwnersBut.writes ?_ (State.mapExecuting_writes ..)
  split
  · cases view : c.view with
    | none => rw [State.faultCapture_eq, view]; exact ended
    | some v =>
      exact (ended.acts trivial (E := False) (State.releaseView_acts _ c.port v)).acts trivial
        (State.faultCapture_rest view (ready (.fail _ c v id mem view)))
  · cases view : c.view with
    | none => rw [State.completeCapture_eq, view]; exact ended
    | some v =>
      exact (ended.writes (State.setView_writes ..)).acts trivial
        (State.completeCapture_rest view (ready (State.filledCapture_acts id mem view)))

/-- The end of the outstanding transaction (06 R114, R116, R117). -/
theorem endTransaction (h : s.OwnersBut e) (f : s.PortsLawful) {tr : Transaction} (out : s.mem.outstanding = some tr)
    (as : List Answer) : (s.endTransaction tr.requester as tr.discard).OwnersBut e := by
  cases q : tr.requester with
  | plain p =>
    have idle := h.idle out (by rw [q]; nofun) (by rw [q]; nofun)
    cases d : tr.discard with
    | true => exact idle
    | false => exact idle.endPlain p (fun n => (h.plainOut tr p n out q d).2) rfl as
  | commit =>
    obtain ⟨keep, job, writing⟩ := h.commitOut tr out q
    have told : s.endTransaction .commit as false = s.idlePort.completeCommit job := by
      show (match s.engine with
        | .idle => s.idlePort
        | .requesting _ => s.idlePort
        | .writing job => s.idlePort.completeCommit job) = _
      rw [writing]
    rw [keep, told]
    have lawful : Ready False True s.idlePort := ⟨False.elim, fun _ => f.writes s.idlePort_writes⟩
    exact (h.commitEnded out q writing).acts trivial
      (State.completeCommit_rest ((State.freedCommit_acts (s := s.idlePort) (E := False) (F := True) (G := False) id writing).ready lawful))
  | capture =>
    rw [(h.captureOut tr out q).1]
    exact h.endRead f out q

theorem takeAnswers (h : s.OwnersBut e) (ports : s.PortsLawful) {tr : Transaction} (out : s.mem.outstanding = some tr)
    (f : List Answer → List Answer) : (s.takeAnswers tr f).OwnersBut e := by
  have recorded := h.recordAnswers out f
  rw [State.takeAnswers_eq]
  split
  · exact recorded.endTransaction (tr := { tr with answers := f tr.answers }) (ports.writes (s.recordAnswers_writes tr f))
      (congrArg MemPort.outstanding (s.recordAnswers_mem tr f)) (f tr.answers)
  · exact recorded

/-- A grant makes a pending request the outstanding transaction, and its owner is told (06 R111). -/
theorem grantTo (h : s.OwnersBut e) (idle : s.mem.outstanding = none) {q : Requester} {m : MemRequest} (pending : s.mem.pendingOf q = some m) :
    (s.grantTo q m).OwnersBut e := by
  have writing : ∀ job, s.engine ≠ .writing job := fun job w => by
    obtain ⟨tr, o, -⟩ := h.writing job w
    rw [idle] at o
    cases o
  have reading : ∀ c ∈ s.captures, c.state ≠ .reading := fun c hc w => by
    obtain ⟨tr, o, -⟩ := h.captureReading c hc w
    rw [idle] at o
    cases o
  cases q with
  | plain p =>
    have pending : s.mem.plain.get p = some m := pending
    have plain : ∀ r, (s.grantTo (.plain p) m).mem.plain.get r = if r = p then none else s.mem.plain.get r := fun r => PerPort.get_set ..
    refine ⟨h.commitPending, h.requesting, fun job w => absurd w (writing job), fun tr o q => ?_, h.behind, h.captureRequesting,
      h.capturePending, fun c hc w => absurd w (reading c hc), fun tr o q => ?_, fun r n k => ?_, fun tr r n o q d => ?_⟩
    · cases o; cases q
    · cases o; cases q
    · rw [plain] at k
      split at k
      · exact absurd rfl k
      · exact h.plainPending r n k
    · cases o; cases q
      exact ⟨h.plainPending p n (by rw [pending]; nofun), by rw [plain, if_pos rfl]⟩
  | commit =>
    have pending : s.mem.commit = some m := pending
    obtain ⟨job, requesting⟩ := h.commitPending (by rw [pending]; nofun)
    obtain ⟨answers, a, request⟩ := h.requesting job requesting
    have told : s.grantTo .commit m = ((s.setMem { s.mem.clearPending .commit with
        outstanding := some ⟨.commit, s.mem.tagCounter, m, s.timebase, List.replicate m.count .unanswered, false⟩
        tagCounter := s.mem.tagCounter + 1, ring := Requester.commit.next, issued := s.mem.issued ++ [⟨s.mem.tagCounter, m⟩] }).setEngine
          (.writing job)) := by
      exact State.tellGrant_commit (s := s.setMem _) requesting
    rw [told]
    refine ⟨fun n => absurd rfl n, nofun, fun job' w => ?_, fun tr o _ => ?_, h.behind, h.captureRequesting, h.capturePending,
      fun c hc w => absurd w (reading c hc), fun tr o q => ?_, h.plainPending, fun tr r n o q d => ?_⟩
    · cases w
      rw [request] at pending
      cases pending
      exact ⟨_, rfl, rfl, answers⟩
    · cases o
      exact ⟨rfl, job, rfl⟩
    · cases o; cases q
    · cases o; cases q
  | capture =>
    have pending : s.mem.capture = some m := pending
    obtain ⟨c, hc, requesting⟩ := h.capturePending (by rw [pending]; nofun)
    obtain ⟨l, captures, queued⟩ := h.front hc (by rw [requesting]; nofun)
    obtain ⟨answers, a, request⟩ := h.captureRequesting c hc requesting
    have told : s.grantTo .capture m = ((s.setMem { s.mem.clearPending .capture with
        outstanding := some ⟨.capture, s.mem.tagCounter, m, s.timebase, List.replicate m.count .unanswered, false⟩
        tagCounter := s.mem.tagCounter + 1, ring := Requester.capture.next, issued := s.mem.issued ++ [⟨s.mem.tagCounter, m⟩] }).setCaptures
          ({ c with state := .reading } :: l)) := by
      exact State.tellGrant_capture (s := s.setMem _) captures
    have requests : ∀ d ∈ l, d.state ≠ .requesting := fun d hd k => by rw [queued d hd] at k; cases k
    rw [told]
    refine ⟨h.commitPending, h.requesting, fun job w => absurd w (writing job), fun tr o q => ?_, queued, fun d hd k => ?_,
      fun n => absurd rfl n, fun d hd k => ?_, fun tr o _ => ?_, h.plainPending, fun tr r n o q d => ?_⟩
    · cases o; cases q
    · obtain rfl | hd := List.mem_cons.1 hd
      · cases k
      · exact absurd k (requests d hd)
    · obtain rfl | hd := List.mem_cons.1 hd
      · rw [request] at pending
        cases pending
        exact ⟨_, rfl, rfl, answers⟩
      · rw [queued d hd] at k; cases k
    · cases o
      exact ⟨rfl, _, List.mem_cons_self, rfl⟩
    · cases o; cases q

theorem grant (h : s.OwnersBut e) : s.grant.OwnersBut e := by
  unfold State.grant
  split
  · exact h
  · next idle =>
    split
    · exact h
    · split
      · exact h
      · next pending => exact h.grantTo idle pending

/-- The capture at the front asks for its burst (05 R95). -/
theorem requestCapture (h : s.OwnersBut e) : s.requestCapture.OwnersBut e := by
  unfold State.requestCapture
  split
  · exact h
  · next queued =>
    have queued : ∀ c ∈ s.captures, c.state = .queued := by simpa using queued
    split
    · exact h
    · next c l captures =>
      rw [captures] at queued
      have behind : ∀ d ∈ l, d.state = .queued := fun d hd => queued d (List.mem_cons_of_mem c hd)
      refine ⟨h.commitPending, h.requesting, h.writing, h.commitOut, behind, fun d hd k => ?_, fun _ => ⟨_, List.mem_cons_self, rfl⟩,
        fun d hd k => ?_, fun tr o q => ?_, h.plainPending, h.plainOut⟩
      · obtain rfl | hd := List.mem_cons.1 hd
        · exact ⟨rfl, _, rfl⟩
        · rw [behind d hd] at k; cases k
      · obtain rfl | hd := List.mem_cons.1 hd
        · cases k
        · rw [behind d hd] at k; cases k
      · obtain ⟨-, d, hd, reading⟩ := h.captureOut tr o q
        rw [captures] at hd
        rw [queued d hd] at reading
        cases reading

/-! ### Port reset (02 R38; 06 R118) -/

/-- The port's requests are dropped, and what it asked of memory is not yet. -/
theorem dropRequests (h : s.OwnersBut e) (p : Port) : (s.dropRequests p).OwnersBut fun q => e q ∨ q = p := by
  have awaits : ∀ q, q ≠ p → ((s.dropRequests p).AwaitsMemory q ↔ s.AwaitsMemory q) := fun q ne =>
    State.awaitsMemory_port ((s.setPort_port p q _).trans (if_neg ne))
  refine ⟨h.commitPending, h.requesting, h.writing, h.commitOut, h.behind, h.captureRequesting, h.capturePending, h.captureReading,
    h.captureOut, fun q n k => ?_, fun tr q n o r d => ?_⟩
  · exact (awaits q fun e => n (.inr e)).2 (h.plainPending q (fun e => n (.inl e)) k)
  · obtain ⟨a, none⟩ := h.plainOut tr q (fun e => n (.inl e)) o r d
    exact ⟨(awaits q fun e => n (.inr e)).2 a, none⟩

/-- Then what it asked of memory is withdrawn or marked for discard (06 R118). -/
theorem resetPlain {p : Port} (h : s.OwnersBut fun q => e q ∨ q = p) : (s.resetPlain p).OwnersBut e := by
  have plain : ∀ q, (s.resetPlain p).mem.plain.get q = if q = p then none else s.mem.plain.get q := fun q => PerPort.get_set ..
  have same : ∀ tr, s.mem.outstanding = some tr → isPlainOf p tr = false → (s.resetPlain p).mem.outstanding = some tr := fun tr o n => by
    show s.mem.outstanding.map _ = _
    rw [o]
    exact congrArg some (if_neg (by rw [n]; nofun))
  have old : ∀ tr, (s.resetPlain p).mem.outstanding = some tr → ∃ tr', s.mem.outstanding = some tr' ∧
      tr = if isPlainOf p tr' then { tr' with discard := true } else tr' := fun tr o => by
    obtain ⟨tr', o', e⟩ := Option.map_eq_some_iff.1 o
    exact ⟨tr', o', e.symm⟩
  have others : ∀ tr, (s.resetPlain p).mem.outstanding = some tr → tr.requester ≠ .plain p → s.mem.outstanding = some tr := fun tr o n => by
    obtain ⟨tr', o', e⟩ := old tr o
    have notPlain : ¬ isPlainOf p tr' = true := fun k => n (by rw [e, if_pos k]; simpa [isPlainOf] using k)
    rw [if_neg notPlain] at e
    exact e ▸ o'
  refine ⟨h.commitPending, h.requesting, fun job w => ?_, fun tr o q => h.commitOut tr (others tr o (by rw [q]; nofun)) q, h.behind,
    h.captureRequesting, h.capturePending, fun c hc w => ?_, fun tr o q => h.captureOut tr (others tr o (by rw [q]; nofun)) q,
    fun q n k => ?_, fun tr q n o r d => ?_⟩
  · obtain ⟨tr, o, q, answers⟩ := h.writing job w
    exact ⟨tr, same tr o (by simp [isPlainOf, q]), q, answers⟩
  · obtain ⟨tr, o, q, answers⟩ := h.captureReading c hc w
    exact ⟨tr, same tr o (by simp [isPlainOf, q]), q, answers⟩
  · rw [plain] at k
    split at k
    · exact absurd rfl k
    · next ne => exact h.plainPending q (fun e => e.elim n ne) k
  · by_cases hq : q = p
    · subst hq
      obtain ⟨tr', -, e⟩ := old tr o
      split at e
      · rw [e] at d; cases d
      · next k => rw [e] at r; exact absurd (by simp [isPlainOf, r]) k
    · obtain ⟨a, none⟩ := h.plainOut tr q (fun e => e.elim n hq) (others tr o (by rw [r]; exact fun e => hq (by cases e; rfl))) r d
      exact ⟨a, by rw [plain, if_neg hq]; exact none⟩

theorem resetPort (h : s.OwnersBut e) (f : s.PortsLawful) (p : Port) : (s.resetPort p).OwnersBut e := by
  rw [State.resetPort_eq]
  have unported := (h.dropRequests p).acts (E := False) trivial (State.unported_acts False.elim p)
  exact (unported.acts trivial (State.releaseAll_acts ⟨False.elim, fun _ => f.unported p⟩ _)).resetPlain

theorem hardReset (s : State) : s.hardReset.OwnersBut e := by
  have none : ∀ p, s.hardReset.mem.plain.get p = none := fun p => by cases p <;> rfl
  exact ⟨fun n => absurd rfl n, nofun, nofun, nofun, nofun, nofun, fun n => absurd rfl n, nofun, nofun,
    fun p _ k => absurd (none p) k, nofun⟩

end State.OwnersBut

/-- Every part of a step keeps the agreement of the memory port and the owners. -/
theorem State.ownersLawful_kept : Kept fun s => s.PortsLawful ∧ s.OwnersBut fun _ => False := by
  have K := State.portsLawful_kept
  have ready : ∀ {s : State}, s.PortsLawful → Ready False True s := fun h => ⟨False.elim, fun _ => h⟩
  refine ⟨fun s l h => ⟨K.pending s l h.1, h.2.writes (s.pending_writes l)⟩, fun s t q h => ⟨K.quiet s t q h.1, ?_⟩,
    fun s p h => ⟨K.portReset s p h.1, ?_⟩, fun s p r can formed h => ⟨K.taken s p r can formed h.1, ?_⟩,
    fun s k un h => ⟨K.command s k un h.1, ?_⟩, fun s h => ⟨K.hardReset s h.1, .hardReset s⟩,
    fun s h => ⟨K.lineFalls s h.1, h.2.writes (s.setHardResetLine_writes _)⟩, fun s p h => ⟨K.resetLineFalls s p h.1, ?_⟩,
    fun s h k => ⟨K.tick s h.1 k.1, ?_⟩, fun s h => ⟨K.grant s h.1, h.2.grant⟩, fun s h => ⟨K.takeCommit s h.1, h.2.takeCommit⟩,
    fun s h => ⟨K.requestCapture s h.1, h.2.requestCapture⟩, fun s t l h => ⟨K.link s t l h.1, h.2.writes l.writes⟩⟩
  · obtain ⟨ports, owners⟩ := h
    cases q with
    | choose n => exact owners.writes (s.setChoices_writes n)
    | advance p can => exact owners.acts trivial (State.advance_acts (ready ports) can)
    | complete => exact owners.writes s.completeLong_writes
    | refuse y m => exact owners.acts trivial (State.refuseHold_acts .holdLimit (ready ports) fun _ => m)
    | expireBuffer b g => exact owners.acts trivial (State.expireBuffer_acts (ready ports) g)
    | expireView p v _ => exact owners.acts (E := False) trivial (s.expireView_acts p v)
    | answers tr f out => exact owners.takeAnswers ports out f
  · exact (h.2.resetPort h.1 p).acts trivial (State.examineHolds_acts (ready (h.1.resetPort p)))
  · exact h.2.setPort _ fun _ => (State.awaitsMemory_setPort (x := { s.port p with queue := (s.port p).queue ++ [r] }) rfl).2
  · refine State.OwnersBut.writes ?_ (State.conclude_writes ..)
    obtain q | ⟨u, w, q⟩ := (s.carryOut_carried k).acts (G := True) (ready h.1)
    · exact h.2.acts trivial q
    · exact (h.2.writes w).acts trivial q
  · exact h.2.setPort _ fun _ => (State.awaitsMemory_setPort (x := { s.port p with resetLine := false }) rfl).2
  · exact k.2.writes ((State.setTimebase_writes ..).seq (State.fillEntry_writes _))

/-- Settles O55: the acts keep the view store's laws, and an owner's register and its request or transaction at the memory port change
in the same part of a step. -/
theorem everyStepKeepsTheViewsLawful : Obligations.EveryStepKeepsTheViewsLawful := by
  refine ⟨fun s t views e => State.viewsLawful_kept.step e views, fun s t ports _ owners e => ?_⟩
  rw [State.ownersLawful_iff] at owners ⊢
  exact (State.ownersLawful_kept.step e ⟨ports, owners⟩).2

end Sys2Proof.Machine

/-! SUPPORT. The step itself, and the part right after reset. -/

namespace Sys2Proof.Machine

/-! ### The step (95; logs 3, 6) -/

theorem step_cons {s : State} {c : Instr} {rest : List Instr} (h : s.pending = c :: rest) :
    step s = exec c { s with pending := rest } := by
  unfold step
  rw [h]

theorem step_nil {s : State} (h : s.pending = []) : step s = .next s := by
  unfold step
  rw [h]

/-- No command's meaning faults or is refused. -/
theorem step_next (s : State) : ∃ t, step s = .next t := by
  cases h : s.pending with
  | nil => exact ⟨s, step_nil h⟩
  | cons c rest =>
    obtain ⟨t, e, -⟩ := exec_steps c { s with pending := rest }
    exact ⟨t, (step_cons h).trans e⟩

/-- Settles O1: a step runs the front command on the queue's rest, idles on an empty queue, and every command has a next state. -/
theorem stepRunsTheFrontCommand : Obligations.StepRunsTheFrontCommand :=
  ⟨fun _ _ _ => step_cons, fun _ => step_nil, step_next⟩

/-! ### Right after reset -/

/-- The part right after hard reset of a part that stood at reset differs from that in the line's level alone. -/
theorem State.reset_writes : State.reset.hardReset.Writes [.line] State.reset := by
  refine ⟨fun f n => ?_⟩
  cases f
  case line => exact absurd (by decide) n
  all_goals rfl

theorem State.reset_port (p : Port) : (State.reset.port p).queue = [] ∧ (State.reset.port p).service = .fresh := by
  cases p <;> exact ⟨rfl, rfl⟩

/-- With every queue empty no router can move. -/
theorem State.movable_of_empty {s : State} (h : ∀ p, (s.port p).queue = []) : s.movable = [] := by
  unfold State.movable
  rw [List.filter_eq_nil_iff]
  intro p _
  unfold State.canAdvance
  rw [h]
  exact Bool.false_ne_true

theorem State.reset_atRest : State.reset.AtRest :=
  ⟨State.movable_of_empty fun p => (State.reset_port p).1, State.completeLong_idle _ nofun⟩

theorem State.reset_updating : State.reset.Updating True fun _ => False :=
  State.Updating.writes State.reset.hardReset_updating State.reset_writes

theorem State.reset_ownersLawful : State.reset.OwnersLawful :=
  (State.ownersLawful_iff _).2 ((State.OwnersBut.hardReset State.reset).writes State.reset_writes)

/-- Where nothing is held, gathering, viewed or outstanding, no timer runs. -/
theorem State.TimersLawful.of_still {s : State} (holds : s.pool.holds = []) (buffer : ∀ b, (s.buffer b).state = .free)
    (view : ∀ p v, (s.view p v).state = .free) (outstanding : s.mem.outstanding = none) : s.TimersLawful := by
  refine ⟨by rw [holds]; nofun, fun b g => ?_, fun p v h => ?_, by rw [outstanding]; nofun, fun p v n => absurd (view p v) n⟩
  · rw [buffer] at g
    cases g
  · rw [view] at h
    cases h

theorem State.hardReset_timersLawful (s : State) : s.hardReset.TimersLawful := .of_still rfl s.hardReset_buffer s.hardReset_view rfl

theorem State.reset_timersLawful : State.reset.TimersLawful :=
  .of_still rfl State.reset.hardReset_buffer State.reset.hardReset_view rfl

/-- Settles O58: the hard reset of a part makes each law good, and the part after reset differs from one so reset in the line alone. -/
theorem theLawsHoldAtReset : Obligations.TheLawsHoldAtReset := by
  have w := State.reset_writes
  have updating := State.reset_updating
  have events := State.EventsSound.initial
  exact ⟨events.lawful, events.blank, State.reset.hardReset_regionsLawful.rests (.of_writes w), updating.pool,
    State.reset.hardReset_waitsLawful.writes w, State.reset.hardReset_viewsLawful.writes w, updating.ports, State.reset_atRest,
    (State.updatesOwned_iff _).2 updating.owned, updating.one trivial, State.reset_ownersLawful, nofun, State.reset_timersLawful⟩

/-! ### Hard reset (02 R42 and the blocks' own rules) -/

theorem State.hardReset_entry (k : Fin 4096) (s : State) : cell s.hardReset.versions k = ⟨0, .clean⟩ := cell_replicate ..

/-- Settles O3: hard reset writes every block's initial value, whatever the state. -/
theorem hardResetReturnsThePartToItsInitialState : Obligations.HardResetReturnsThePartToItsInitialState := by
  intro s
  have buffer : ∀ b, s.hardReset.buffer b = .initial := fun b => cell_replicate ..
  have pending : ∀ q, s.hardReset.mem.pendingOf q = none := fun q => by
    cases q with
    | plain p => cases p <;> rfl
    | commit => rfl
    | capture => rfl
  refine ⟨s.hardReset, rfl, s.hardReset_region, fun k => s.hardReset_entry k, fun p => ?_, fun b => ?_, fun p => ?_, rfl, rfl, rfl,
    s.hardReset_view, fun p => ?_, rfl, rfl, pending, rfl, rfl, rfl, rfl, rfl, rfl, rfl, rfl, rfl, fun i => cell_replicate .., rfl, rfl,
    rfl, rfl⟩
  · rw [s.hardReset_port]
    exact ⟨rfl, rfl, rfl, rfl⟩
  · rw [buffer]
    exact ⟨rfl, rfl, rfl, fun k => cell_replicate ..⟩
  · cases p <;> rfl
  · cases p <;> rfl

end Sys2Proof.Machine

/-! SUPPORT. Frames on the management link (08 R138 to R149): a command's bytes read back, what each treatment of a frame makes of the bytes
clocked, and that a command's owner does not look at the link. -/

namespace Sys2Proof.Machine

/-! ### A command's bytes read back (08 R143, R155, R157 to R161) -/

theorem append_extractLsb' {m n : Nat} (x : BitVec (m + n)) : x.extractLsb' n m ++ x.extractLsb' 0 n = x := by
  ext i hi
  simp only [BitVec.getElem_append, BitVec.getElem_extractLsb']
  split
  · simp [BitVec.getLsbD_eq_getElem hi]
  · rw [show n + (i - n) = i by omega]
    simp [BitVec.getLsbD_eq_getElem hi]

theorem extractLsb'_extractLsb' {k m n : Nat} (x : BitVec k) (a b : Nat) (le : a + n ≤ m) :
    (x.extractLsb' b m).extractLsb' a n = x.extractLsb' (b + a) n := by
  ext i hi
  simp only [BitVec.getElem_extractLsb', BitVec.getLsbD_extractLsb']
  rw [decide_eq_true (by omega : a + i < m), Bool.true_and, Nat.add_assoc]

theorem field2_bytes2 (h : Half) : field2 (h.extractLsb' 8 8) (h.extractLsb' 0 8) = h := append_extractLsb' (m := 8) (n := 8) h

theorem field4_bytes4 (w : Word) :
    field4 (w.extractLsb' 24 8) (w.extractLsb' 16 8) (w.extractLsb' 8 8) (w.extractLsb' 0 8) = w := by
  have low := append_extractLsb' (m := 24) (n := 8) w
  have middle := append_extractLsb' (m := 16) (n := 8) (w.extractLsb' 8 24)
  have high := append_extractLsb' (m := 8) (n := 8) (w.extractLsb' 16 16)
  rw [extractLsb'_extractLsb' _ _ _ (by decide), extractLsb'_extractLsb' _ _ _ (by decide)] at middle high
  exact (congrArg (fun x => (x ++ _ ++ _ : BitVec (16 + 8 + 8))) high).trans
    ((congrArg (fun x => (x ++ _ : BitVec (24 + 8))) middle).trans low)

theorem paramCount_codeOfCommand (c : Command) : paramCount (codeOfCommand c) = some (paramBytes c).length := by
  cases c <;> rfl

theorem parseCommand_paramBytes (c : Command) : parseCommand (codeOfCommand c) (paramBytes c) = some c := by
  cases c
  case defineRegion d =>
    show some (Command.defineRegion _) = _
    simp only [field4_bytes4, field2_bytes2]
  case setWatch w =>
    show some (Command.setWatch _) = _
    simp only [field4_bytes4, field2_bytes2]
  case readRecord r k => exact congrArg (some ∘ Command.readRecord r) (field2_bytes2 k)
  case clearTorn r k => exact congrArg (some ∘ Command.clearTorn r) (field2_bytes2 k)
  case setEventMasks q a => exact congrArg (some ∘ Command.setEventMasks q) (field2_bytes2 a)
  all_goals rfl

theorem commandBytes_length (c : Command) : (commandBytes c).length = (paramBytes c).length + 2 := by
  simp [commandBytes]

theorem paramCount_le {code : Byte} {p : Nat} (h : paramCount code = some p) : p ≤ 21 := by
  unfold paramCount at h
  split at h <;> cases h <;> decide

theorem commandBytes_length_le (c : Command) : (commandBytes c).length ≤ 23 := by
  rw [commandBytes_length]
  have := paramCount_le (paramCount_codeOfCommand c)
  omega

theorem judge_commandBytes (c : Command) : judge (commandBytes c) (commandBytes c).length = .execute c := by
  have length := commandBytes_length c
  have bytes : commandBytes c = codeOfCommand c :: (paramBytes c ++ [crc8 (codeOfCommand c :: paramBytes c)]) := rfl
  rw [length, bytes]
  unfold judge
  simp only [paramCount_codeOfCommand, lt_irrefl, if_false, List.take_left, parseCommand_paramBytes]
  rw [if_neg]
  simp [List.getD]

/-- Settles O33: each command's parameters are as many as its code fixes, and the judgement of its bytes finds the command. -/
theorem commandBytesReadBack : Obligations.CommandBytesReadBack := fun c =>
  ⟨paramCount_codeOfCommand c, parseCommand_paramBytes c, judge_commandBytes c, commandBytes_length_le c⟩

/-! ### What the judgement finds of other bytes (08 R143) -/

/-- The judgement of a frame by its first 23 bytes and their number is the one by all its bytes, but for their check. -/
theorem judge_fails {code : Byte} {rest : List Byte} {p : Nat} (h : paramCount code = some p) :
    ((code :: rest).length < p + 2 → judge ((code :: rest).take 23) (code :: rest).length = .result .fragment) ∧
    (p + 2 < (code :: rest).length → judge ((code :: rest).take 23) (code :: rest).length = .result .length) ∧
    ((code :: rest).length = p + 2 → rest[p]? ≠ some (crc8 (code :: rest.take p)) →
      judge ((code :: rest).take 23) (code :: rest).length = .result .badCheck) := by
  have le := paramCount_le h
  have judged : ∀ n, judge ((code :: rest).take 23) n = judge (code :: rest.take 22) n := fun _ => rfl
  simp only [judged]
  unfold judge
  simp only [h]
  refine ⟨fun n => if_pos n, fun n => ?_, fun n check => ?_⟩
  · rw [if_neg (by omega), if_pos n]
  · have length : rest.length = p + 1 := by simpa using n
    have in' : rest[p]? = some rest[p] := List.getElem?_eq_getElem (by omega)
    have last : (rest.take 22).getD p 0 = rest[p] := by
      rw [List.getD, List.getElem?_take_of_lt (by omega), in']
      rfl
    rw [if_neg (by omega), if_neg (by omega), last, List.take_take, min_eq_left (by omega), if_pos]
    rw [bne_iff_ne]
    exact fun e => check (in'.trans (congrArg some e))

theorem judge_unknown {code : Byte} (rest : List Byte) (n : Nat) (h : paramCount code = none) :
    judge ((code :: rest).take 23) n = .result .badCode := by
  show judge (code :: rest.take 22) n = _
  unfold judge
  simp only [h]

/-! ### Bits presented (08 R138) -/

theorem zeros_append (m n : Nat) : zeros m ++ zeros n = zeros (m + n) := List.replicate_append_replicate

theorem bitsOf_zero : bitsOf 0 = zeros 8 := rfl

theorem take_zeros {m n : Nat} (h : m ≤ n) : (zeros n).take m = zeros m := by
  simp [zeros, h]

/-- The next bytes of a list, and 0x00 past its end. -/
def bytesOut (out : List Byte) (n : Nat) : List Byte := out.take n ++ List.replicate (n - out.length) 0

theorem bytesOut_zero (out : List Byte) : bytesOut out 0 = [] := by simp [bytesOut]

theorem bytesOut_succ (out : List Byte) (n : Nat) : bytesOut out (n + 1) = out.headD 0 :: bytesOut out.tail n := by
  cases out with
  | nil => simp [bytesOut, List.replicate_succ]
  | cons b l => simp [bytesOut]

theorem bytesOut_nil (n : Nat) : (bytesOut [] n).flatMap bitsOf = zeros (8 * n) := by
  induction n with
  | zero => rfl
  | succ n ih =>
    rw [bytesOut_succ, List.flatMap_cons]
    show zeros 8 ++ (bytesOut [] n).flatMap bitsOf = _
    rw [ih, zeros_append, Nat.mul_succ, Nat.add_comm]

/-! ### A frame on which nothing is presented and nothing taken (08 R138, R140, R149, R154) -/

/-- The treatments under which every byte presents 0x00 and is dropped. -/
def Treatment.Mute (x : Treatment) : Prop := x = .silent ∨ x = .noFrame ∨ x = .abandoning

section
variable {s : State}

theorem State.clockByte_mute {x : Treatment} (mute : x.Mute) (h : s.link.frame = some x) (b : Byte) :
    s.clockByte b = s.present (zeros 8) := by
  unfold State.clockByte
  obtain rfl | rfl | rfl := mute <;> rw [h]

theorem State.clockBytes_mute {x : Treatment} (mute : x.Mute) (h : s.link.frame = some x) (l : List Byte) :
    s.clockBytes l = s.present (zeros (8 * l.length)) := by
  unfold State.clockBytes
  induction l generalizing s with
  | nil =>
    show s = s.setLink { s.link with presented := s.link.presented ++ [] }
    rw [List.append_nil]
    rfl
  | cons b l ih =>
    rw [List.foldl_cons, State.clockByte_mute mute h, ih (s := s.present (zeros 8)) h]
    show s.setLink { s.link with presented := s.link.presented ++ zeros 8 ++ zeros (8 * l.length) } = _
    rw [List.append_assoc, zeros_append, List.length_cons, show 8 * (l.length + 1) = 8 + 8 * l.length by omega]
    rfl

/-- A byte cut short presents bits of 0x00. -/
theorem State.clockCut_mute {x : Treatment} (mute : x.Mute) (h : s.link.frame = some x) (n : Fin 8) :
    s.clockCut n.val = s.present (zeros n.val) := by
  have byte : presentedByte s.link = 0 := by
    unfold presentedByte
    obtain rfl | rfl | rfl := mute <;> rw [h]
  unfold State.clockCut
  rw [h, byte, bitsOf_zero, take_zeros (by omega)]

theorem State.raise_noFrame (h : s.link.frame = some .noFrame) : s.raise = s.setFrame none := by
  unfold State.raise
  rw [h]

theorem State.raise_silent (h : s.link.frame = some .silent) : s.raise = s.setFrame none := by
  unfold State.raise
  rw [h]

theorem State.raise_abandoning (h : s.link.frame = some .abandoning) : s.raise = (s.setFrame none).endAbandoning := by
  unfold State.raise
  rw [h]

/-- The bytes and bits of a run under such a treatment, and the rise of chip select. -/
theorem State.endRun_mute {x : Treatment} (mute : x.Mute) (h : s.link.frame = some x) (f : FramePart) :
    (s.clockBytes f.bytes).endRun f =
      if f.ends then (s.present (zeros (8 * f.bytes.length + f.cut.val))).raise else s.present (zeros (8 * f.bytes.length)) := by
  rw [State.clockBytes_mute mute h]
  unfold State.endRun
  split
  · rw [State.clockCut_mute (s := s.present _) mute h f.cut]
    show (s.setLink { s.link with presented := s.link.presented ++ _ ++ _ }).raise = _
    rw [List.append_assoc, zeros_append]
    rfl
  · rfl

/-- A run in a chip-select period open since before hard reset's end: 0x00 on every byte, and the rise ends the period (08 R154). -/
theorem State.endRun_noFrame (h : s.link.frame = some .noFrame) (f : FramePart) :
    (s.clockBytes f.bytes).endRun f = s.setLink { s.link with
      frame := if f.ends then none else some .noFrame
      presented := s.link.presented ++ zeros (8 * f.bytes.length + (if f.ends then f.cut.val else 0)) } := by
  rw [State.endRun_mute (.inr (.inl rfl)) h]
  cases f.ends with
  | false =>
    show s.present _ = s.setLink { s.link with frame := some .noFrame, presented := _ }
    rw [← h]
    rfl
  | true => exact State.raise_noFrame (s := s.present _) h

end

end Sys2Proof.Machine

/-! SUPPORT. Whole frames, by their opener and the link's state (08 R140 to R149, R154). -/

namespace Sys2Proof.Machine

theorem exec_rowOf (c : Command) (s : State) : exec (rowOf c) s = .next (s.sendCommand c) := by cases c <;> rfl

/-! ### The link's writers, one after another -/

theorem State.setLink_self (s : State) : s.setLink s.link = s := rfl

theorem State.setLink_setLink (s : State) (x y : Link) : (s.setLink x).setLink y = s.setLink y := rfl

theorem State.present_setLink (s : State) (x : Link) (l : List Bool) :
    (s.setLink x).present l = s.setLink { x with presented := x.presented ++ l } := rfl

theorem State.setFrame_setLink (s : State) (x : Link) (f : Option Treatment) :
    (s.setLink x).setFrame f = s.setLink { x with frame := f } := rfl

theorem State.setLinkState_setLink (s : State) (x : Link) (y : LinkState) :
    (s.setLink x).setLinkState y = s.setLink { x with state := y } := rfl

theorem State.setLastRefusal_setLink (s : State) (x : Link) (y : LastRefusal) :
    (s.setLink x).setLastRefusal y = s.setLink { x with lastRefusal := y } := rfl

section
variable {s : State} {opener : Byte} {bytes : List Byte} {cut : Fin 8}

/-- The opener byte of a frame, chip select having fallen (08 R138). -/
def State.opened' (s : State) (opener : Byte) : State := (s.setLink { s.link with presented := zeros 8 }).takeOpener opener

/-- A frame in one step: its opener, its bytes, and the rise of chip select (08 R138). -/
theorem State.frame_eq (line : s.hardResetLine = false) (high : s.link.frame = none) :
    s.frame opener ⟨.opener, bytes, cut, true⟩ = ((s.opened' opener).clockBytes bytes).endRun ⟨.opener, bytes, cut, true⟩ := by
  unfold State.frame State.clockOpener
  rw [line, high]
  rfl

/-- A frame that the link refuses or ignores (08 R140, R141): 0x00 on every byte, and the last refusal. -/
theorem State.frame_silent (line : s.hardResetLine = false) (high : s.link.frame = none) {x : LastRefusal}
    (opens : s.opened' opener = ((s.setLink { s.link with presented := zeros 8 }).setLastRefusal x).setFrame (some .silent)) :
    s.frame opener ⟨.opener, bytes, cut, true⟩ =
      s.setLink { s.link with lastRefusal := x, presented := zeros (8 * (1 + bytes.length) + cut.val) } := by
  rw [State.frame_eq line high, opens]
  simp only [State.setLastRefusal_setLink, State.setFrame_setLink]
  rw [State.endRun_mute (f := ⟨.opener, bytes, cut, true⟩) (.inl rfl) rfl, if_pos rfl, State.present_setLink, State.raise_silent rfl,
    State.setFrame_setLink, zeros_append, high, show 8 + (8 * bytes.length + cut.val) = 8 * (1 + bytes.length) + cut.val by omega]

/-- A whole frame that the link refuses or ignores. -/
theorem State.frame_refuses (line : s.hardResetLine = false) (high : s.link.frame = none) {x : LastRefusal}
    (opens : s.opened' opener = ((s.setLink { s.link with presented := zeros 8 }).setLastRefusal x).setFrame (some .silent)) :
    s.frame opener (.whole bytes) = s.refuses (1 + bytes.length) x := State.frame_silent (cut := 0) line high opens

/-! ### The openers (08 R140, R141) -/

theorem State.opened'_command_executing {e : Executing} (h : s.link.state = .executing e) : s.opened' 0x3C =
    ((s.setLink { s.link with presented := zeros 8 }).setLastRefusal .busy).setFrame (some .silent) := by
  unfold State.opened' State.takeOpener
  rw [if_pos rfl, State.setLink_link, h]

theorem State.opened'_command_result {out : List Byte} {pos : Nat} (h : s.link.state = .result out pos) : s.opened' 0x3C =
    ((s.setLink { s.link with presented := zeros 8 }).setLastRefusal .resultPending).setFrame (some .silent) := by
  unfold State.opened' State.takeOpener
  rw [if_pos rfl, State.setLink_link, h]

theorem State.opened'_command_idle (h : s.link.state = .idle) : s.opened' 0x3C =
    ((s.setLink { s.link with presented := zeros 8 }).setLinkState (.receiving [] 0)).setFrame (some .receiving) := by
  unfold State.opened' State.takeOpener
  rw [if_pos rfl, State.setLink_link, h]

theorem State.opened'_result_idle (h : s.link.state = .idle ∨ ∃ e, s.link.state = .executing e) : s.opened' 0x5A =
    ((s.setLink { s.link with presented := zeros 8 }).setLastRefusal s.link.lastRefusal).setFrame (some .silent) := by
  unfold State.opened' State.takeOpener
  rw [if_neg (by decide), if_pos rfl, State.setLink_link]
  obtain h | ⟨e, h⟩ := h <;> rw [h] <;> rfl

theorem State.opened'_result_result {out : List Byte} {pos : Nat} (h : s.link.state = .result out pos) : s.opened' 0x5A =
    (s.setLink { s.link with presented := zeros 8 }).setFrame (some .delivering) := by
  unfold State.opened' State.takeOpener
  rw [if_neg (by decide), if_pos rfl, State.setLink_link, h]

theorem State.opened'_status (h : ∀ l n, s.link.state ≠ .receiving l n) : s.opened' 0x69 =
    ((s.setLink { s.link with presented := zeros 8 }).setLastRefusal .none).setFrame (some (.status (statusBytes s))) := by
  unfold State.opened' State.takeOpener
  rw [if_neg (by decide), if_neg (by decide), if_pos rfl, State.setLink_link]
  cases e : s.link.state with
  | receiving l n => exact absurd e (h l n)
  | idle => rfl
  | executing x => rfl
  | result out pos => rfl

theorem State.opened'_abandon_executing {e : Executing} (h : s.link.state = .executing e) : s.opened' 0x96 =
    ((s.setLink { s.link with presented := zeros 8 }).setLastRefusal .busy).setFrame (some .silent) := by
  unfold State.opened' State.takeOpener
  rw [if_neg (by decide), if_neg (by decide), if_neg (by decide), if_pos rfl, State.setLink_link, h]

theorem State.opened'_abandon_idle (h : s.link.state = .idle) : s.opened' 0x96 =
    ((s.setLink { s.link with presented := zeros 8 }).setLastRefusal s.link.lastRefusal).setFrame (some .silent) := by
  unfold State.opened' State.takeOpener
  rw [if_neg (by decide), if_neg (by decide), if_neg (by decide), if_pos rfl, State.setLink_link, h]
  rfl

theorem State.opened'_abandon_result {out : List Byte} {pos : Nat} (h : s.link.state = .result out pos) : s.opened' 0x96 =
    (s.setLink { s.link with presented := zeros 8 }).setFrame (some .abandoning) := by
  unfold State.opened' State.takeOpener
  rw [if_neg (by decide), if_neg (by decide), if_neg (by decide), if_pos rfl, State.setLink_link, h]

theorem State.opened'_bad (h : opener ∉ knownOpeners) : s.opened' opener =
    ((s.setLink { s.link with presented := zeros 8 }).setLastRefusal .badOpener).setFrame (some .silent) := by
  have ne : opener ≠ 0x3C ∧ opener ≠ 0x5A ∧ opener ≠ 0x69 ∧ opener ≠ 0x96 := by
    simpa [knownOpeners, not_or] using h
  unfold State.opened' State.takeOpener
  rw [if_neg ne.1, if_neg ne.2.1, if_neg ne.2.2.1, if_neg ne.2.2.2]

/-! ### COMMAND frames taken (08 R142, R143) -/

theorem State.clockByte_receiving (s : State) (kept : List Byte) (n : Nat) (x : LastRefusal) (bits : List Bool) (b : Byte) :
    (s.setLink ⟨.receiving kept n, x, some .receiving, bits⟩).clockByte b =
      s.setLink ⟨.receiving (if n < 23 then kept ++ [b] else kept) (n + 1), x, some .receiving, bits ++ zeros 8⟩ := rfl

theorem take_23_concat (kept : List Byte) (b : Byte) :
    (if kept.length < 23 then kept.take 23 ++ [b] else kept.take 23) = (kept ++ [b]).take 23 := by
  rw [List.take_append]
  split
  · rw [List.take_of_length_le (l := [b]) (by simp only [List.length_singleton]; omega)]
  · rw [show 23 - kept.length = 0 by omega, List.take_zero, List.append_nil]

/-- The bytes of a COMMAND frame go to the command buffer up to its 23, and are counted. -/
theorem State.clockBytes_receiving (s : State) (kept l : List Byte) (x : LastRefusal) (bits : List Bool) :
    (s.setLink ⟨.receiving (kept.take 23) kept.length, x, some .receiving, bits⟩).clockBytes l =
      s.setLink ⟨.receiving ((kept ++ l).take 23) (kept ++ l).length, x, some .receiving, bits ++ zeros (8 * l.length)⟩ := by
  unfold State.clockBytes
  induction l generalizing kept bits with
  | nil =>
    rw [List.append_nil, List.length_nil, Nat.mul_zero, zeros, List.replicate_zero, List.append_nil]
    rfl
  | cons b l ih =>
    have length : kept.length + 1 = (kept ++ [b]).length := by simp
    rw [List.foldl_cons, State.clockByte_receiving, take_23_concat, length, ih, List.append_assoc, List.append_assoc, zeros_append,
      List.length_cons, show 8 + 8 * l.length = 8 * (l.length + 1) by omega]
    rfl

/-- Chip select rises on a COMMAND frame that was taken. -/
theorem State.endRun_receiving (s : State) (x : LinkState) (y : LastRefusal) (bits : List Bool) (l : List Byte) :
    (s.setLink ⟨x, y, some .receiving, bits⟩).endRun (.whole l) = (s.setLink ⟨x, y, none, bits⟩).endReceiving := by
  have cut : (s.setLink ⟨x, y, some .receiving, bits⟩).endRun (.whole l) = (s.setLink ⟨x, y, none, bits ++ []⟩).endReceiving := rfl
  rw [cut, List.append_nil]

/-- A whole COMMAND frame with a ready link: its bytes are taken, and judged at its end (08 R142, R143). -/
theorem State.frame_command (ready : s.linkReady) (bytes : List Byte) : s.frame 0x3C (.whole bytes) =
    (s.setLink { s.link with
      state := .receiving (bytes.take 23) bytes.length
      presented := zeros (8 * (1 + bytes.length)) }).endReceiving := by
  obtain ⟨line, high, idle⟩ := ready
  have taken := s.clockBytes_receiving [] bytes s.link.lastRefusal (zeros 8)
  rw [FramePart.whole, State.frame_eq line high, State.opened'_command_idle idle, ← FramePart.whole, State.setLinkState_setLink,
    State.setFrame_setLink]
  refine (congrArg (State.endRun · (.whole bytes)) taken).trans ?_
  rw [State.endRun_receiving, zeros_append, List.nil_append, show 8 + 8 * bytes.length = 8 * (1 + bytes.length) by omega]
  simp only [high]

/-- A frame whose judgement fails gives that result (08 R143). -/
theorem State.frame_command_fails (ready : s.linkReady) {code : Completion}
    (h : judge (bytes.take 23) bytes.length = .result code) : exec (.commandFrame (.whole bytes)) s = .next (s.setLink
      { s.link with state := .result (resultBytes code []) 0, presented := zeros (8 * (1 + bytes.length)) }) := by
  refine congrArg Host.Outcome.next ((State.frame_command ready bytes).trans ?_)
  unfold State.endReceiving
  rw [State.setLink_link]
  dsimp only
  rw [h]
  rfl

/-- Settles O35: each frame-level test that fails gives its outcome at the judgement. -/
theorem badCommandFramesGiveTheirOutcome : Obligations.BadCommandFramesGiveTheirOutcome := by
  intro bytes s ready
  refine ⟨fun e => ?_, fun code rest e => ?_⟩
  · subst e
    exact State.frame_command_fails ready rfl
  · subst e
    refine ⟨fun none => State.frame_command_fails ready (judge_unknown rest _ none), fun p h => ?_⟩
    obtain ⟨fragment, length, check⟩ := judge_fails (rest := rest) h
    exact ⟨fun n => State.frame_command_fails ready (fragment n), fun n => State.frame_command_fails ready (length n),
      fun n bad => State.frame_command_fails ready (check n bad)⟩

/-! ### Frames refused, ignored or abandoning (08 R138, R140, R141, R149) -/

theorem State.sendCommand_executing (line : s.hardResetLine = false) (high : s.link.frame = none) {e : Executing}
    (h : s.link.state = .executing e) (c : Command) : s.sendCommand c = s.refuses (frameLength c) .busy := by
  unfold State.sendCommand
  simp only [line, high, h, Bool.false_eq_true, if_false, State.refuses]
  rfl

theorem State.sendCommand_result (line : s.hardResetLine = false) (high : s.link.frame = none) {out : List Byte} {pos : Nat}
    (h : s.link.state = .result out pos) (c : Command) : s.sendCommand c = s.refuses (frameLength c) .resultPending := by
  unfold State.sendCommand
  simp only [line, high, h, Bool.false_eq_true, if_false, State.refuses]
  rfl

/-- An ABANDON frame that found a result discards it at its end. -/
theorem State.frame_abandons (line : s.hardResetLine = false) (high : s.link.frame = none) {out : List Byte} {pos : Nat}
    (h : s.link.state = .result out pos) : s.frame 0x96 (.whole bytes) =
      s.setLink { s.link with state := .idle, presented := zeros (8 * (1 + bytes.length)) } := by
  rw [FramePart.whole, State.frame_eq line high, State.opened'_abandon_result h]
  rw [State.setFrame_setLink, State.endRun_mute (f := ⟨.opener, bytes, 0, true⟩) (.inr (.inr rfl)) rfl, if_pos rfl,
    State.present_setLink, State.raise_abandoning rfl, State.setFrame_setLink, zeros_append,
    show 8 + (8 * bytes.length + (0 : Fin 8).val) = 8 * (1 + bytes.length) by simp only [Fin.val_zero]; omega]
  unfold State.endAbandoning
  simp only [State.setLink_link, h, high]
  rfl

/-- A frame that ends inside its opener byte, chip select having been high. -/
theorem State.frame_short (line : s.hardResetLine = false) (high : s.link.frame = none) :
    s.frame opener (.short cut) = s.setLink { s.link with presented := zeros cut.val } := by
  unfold State.frame
  rw [line]
  exact s.shortOpener_high cut.val high

/-- Settles O36: each frame by its opener and the link's state. -/
theorem framesRefusedIgnoredOrAbandoning : Obligations.FramesRefusedIgnoredOrAbandoning := by
  refine ⟨fun s bytes line high => ⟨fun e h => ⟨?_, ?_, fun c => ?_⟩, fun out pos h => ⟨?_, fun c => ?_⟩⟩,
    fun opener bytes s bad line high => ?_, fun s bytes line high h => ?_, fun s cut i h line high => ?_⟩
  · exact congrArg Host.Outcome.next (State.frame_refuses line high (State.opened'_command_executing h))
  · exact congrArg Host.Outcome.next (State.frame_refuses line high (State.opened'_abandon_executing h))
  · rw [exec_rowOf, State.sendCommand_executing line high h]
  · exact congrArg Host.Outcome.next (State.frame_refuses line high (State.opened'_command_result h))
  · rw [exec_rowOf, State.sendCommand_result line high h]
  · exact congrArg Host.Outcome.next (State.frame_refuses line high (State.opened'_bad bad))
  · refine congrArg Host.Outcome.next ?_
    obtain ⟨out, pos, h⟩ | h := h
    · exact State.frame_abandons line high h
    · refine (State.frame_refuses line high (State.opened'_abandon_idle h)).trans ?_
      show s.setLink { s.link with lastRefusal := s.link.lastRefusal, presented := _ } = _
      rw [← h]
  · obtain rfl | rfl | rfl | rfl | ⟨o, rfl⟩ := h <;> exact congrArg Host.Outcome.next (State.frame_short line high)

end

end Sys2Proof.Machine

/-! SUPPORT. Frames that deliver bytes (08 R147, R148), commands as whole frames (log 4), and the link in hard reset (08 R154). -/

namespace Sys2Proof.Machine

section
variable {s : State}

/-! ### RESULT frames (08 R147) -/

theorem State.clockByte_delivering (s : State) (out : List Byte) (pos : Nat) (x : LastRefusal) (bits : List Bool) (b : Byte) :
    (s.setLink ⟨.result out pos, x, some .delivering, bits⟩).clockByte b = s.setLink
      ⟨.result out (if pos < out.length then pos + 1 else pos), x, some .delivering, bits ++ bitsOf (out.getD pos 0)⟩ := rfl

theorem headD_drop (out : List Byte) (pos : Nat) : (out.drop pos).headD 0 = out.getD pos 0 := by
  simp [List.headD_eq_head?_getD, List.getD]

/-- Each whole byte delivers the result byte at the read position, 0x00 past the end. -/
theorem State.clockBytes_delivering (s : State) (out : List Byte) {pos : Nat} (le : pos ≤ out.length) (l : List Byte) (x : LastRefusal)
    (bits : List Bool) : (s.setLink ⟨.result out pos, x, some .delivering, bits⟩).clockBytes l = s.setLink
      ⟨.result out (min (pos + l.length) out.length), x, some .delivering,
        bits ++ (bytesOut (out.drop pos) l.length).flatMap bitsOf⟩ := by
  unfold State.clockBytes
  induction l generalizing pos bits with
  | nil =>
    rw [List.length_nil, bytesOut_zero, List.flatMap_nil, List.append_nil, Nat.add_zero, min_eq_left le]
    rfl
  | cons b l ih =>
    have next : (if pos < out.length then pos + 1 else pos) = min (pos + 1) out.length := by split <;> omega
    have tail : (out.drop pos).tail = out.drop (min (pos + 1) out.length) := by
      rw [List.tail_drop]
      obtain h | h := Nat.lt_or_ge pos out.length
      · rw [min_eq_left h]
      · rw [min_eq_right (by omega), List.drop_of_length_le (by omega), List.drop_of_length_le (Nat.le_refl _)]
    have last : min (min (pos + 1) out.length + l.length) out.length = min (pos + (b :: l).length) out.length := by
      rw [List.length_cons]
      omega
    rw [List.foldl_cons, State.clockByte_delivering, next, ih (Nat.min_le_right ..), last, List.length_cons, bytesOut_succ,
      List.flatMap_cons, headD_drop, tail, List.append_assoc]

/-- Chip select rises on a frame that delivered result bytes. -/
theorem State.endRun_delivering (s : State) (out : List Byte) {pos : Nat} (le : pos ≤ out.length) (x : LastRefusal) (bits : List Bool)
    (l : List Byte) (cut : Fin 8) :
    (s.setLink ⟨.result out pos, x, some .delivering, bits⟩).endRun ⟨.opener, l, cut, true⟩ = s.setLink
      ⟨if pos = out.length then .idle else .result out pos, x, none, bits ++ (bitsOf (out.getD pos 0)).take cut.val⟩ := by
  have ended : (s.setLink ⟨.result out pos, x, some .delivering, bits⟩).endRun ⟨.opener, l, cut, true⟩ =
      if out.length ≤ pos then s.setLink ⟨.idle, x, none, bits ++ (bitsOf (out.getD pos 0)).take cut.val⟩
      else s.setLink ⟨.result out pos, x, none, bits ++ (bitsOf (out.getD pos 0)).take cut.val⟩ := rfl
  rw [ended]
  by_cases h : pos = out.length
  · rw [if_pos h, if_pos (by omega)]
  · rw [if_neg h, if_neg (by omega)]

/-- Settles O37: the bytes of the frame deliver the result's, and its end ends a result delivered whole. -/
theorem resultFramesDeliverTheResult : Obligations.ResultFramesDeliverTheResult := by
  intro s bytes cut line high
  refine ⟨fun out pos h le => congrArg Host.Outcome.next ?_, fun h => congrArg Host.Outcome.next ?_⟩
  · have bits : (out.drop pos).take bytes.length ++ List.replicate (bytes.length - (out.length - pos)) 0 =
        bytesOut (out.drop pos) bytes.length := by rw [bytesOut, List.length_drop]
    rw [State.frame_eq line high, State.opened'_result_result h, State.setFrame_setLink]
    simp only [h, high, bits]
    exact (congrArg (State.endRun · _) (s.clockBytes_delivering out le bytes _ _)).trans
      (s.endRun_delivering out (Nat.min_le_right ..) _ _ bytes cut)
  · exact State.frame_silent line high (State.opened'_result_idle h)

/-! ### STATUS frames (08 R148) -/

theorem State.clockByte_status (s : State) (rest : List Byte) (y : LinkState) (x : LastRefusal) (bits : List Bool) (b : Byte) :
    (s.setLink ⟨y, x, some (.status rest), bits⟩).clockByte b =
      s.setLink ⟨y, x, some (.status rest.tail), bits ++ bitsOf (rest.headD 0)⟩ := rfl

theorem State.clockBytes_status (s : State) (rest l : List Byte) (y : LinkState) (x : LastRefusal) (bits : List Bool) :
    (s.setLink ⟨y, x, some (.status rest), bits⟩).clockBytes l =
      s.setLink ⟨y, x, some (.status (rest.drop l.length)), bits ++ (bytesOut rest l.length).flatMap bitsOf⟩ := by
  unfold State.clockBytes
  induction l generalizing rest bits with
  | nil =>
    rw [List.length_nil, bytesOut_zero, List.flatMap_nil, List.append_nil]
    rfl
  | cons b l ih =>
    rw [List.foldl_cons, State.clockByte_status, ih, List.drop_tail, List.length_cons, bytesOut_succ, List.flatMap_cons,
      List.append_assoc]

theorem State.endRun_status (s : State) (rest l : List Byte) (y : LinkState) (x : LastRefusal) (bits : List Bool) :
    (s.setLink ⟨y, x, some (.status rest), bits⟩).endRun (.whole l) = s.setLink ⟨y, x, none, bits⟩ := by
  have ended : (s.setLink ⟨y, x, some (.status rest), bits⟩).endRun (.whole l) = s.setLink ⟨y, x, none, bits ++ []⟩ := rfl
  rw [ended, List.append_nil]

/-- Settles O38: the frame delivers the record as it stands at the opener, and its check. -/
theorem statusFramesReportTheLink : Obligations.StatusFramesReportTheLink := by
  intro s bytes line high unreceiving remaining record
  refine congrArg Host.Outcome.next ?_
  have status : statusBytes s = record ++ [crc8 record] := by
    have body : [codeOfLinkState s.link.state] ++ bytes2 (halfOf (bytesRemaining s.link.state)) ++
        [codeOfRefusal s.link.lastRefusal, byteOf s.events.queue.length, byteOf s.events.lost,
          if s.events.attention then 0x01 else 0x00] = record := by
      simp only [record, remaining]
      cases s.link.state <;> rfl
    rw [← body]
    rfl
  have bits : (record ++ [crc8 record]).take bytes.length ++ List.replicate (bytes.length - 8) 0 =
      bytesOut (statusBytes s) bytes.length := by
    rw [← status]
    rfl
  rw [bits, FramePart.whole, State.frame_eq line high, State.opened'_status unreceiving, ← FramePart.whole,
    State.setLastRefusal_setLink, State.setFrame_setLink]
  simp only [high]
  exact (congrArg (State.endRun · _) (s.clockBytes_status (statusBytes s) bytes _ _ _)).trans (State.endRun_status ..)

/-! ### A command as a whole frame (08 R140, R142, R143, R145; log 4) -/

/-- The operation neither reads nor writes the link. -/
def Unlinked (f : State → State) : Prop := ∀ (s : State) (x : Link), f (s.setLink x) = (f s).setLink x

namespace Unlinked

theorem comp {f g : State → State} (hf : Unlinked f) (hg : Unlinked g) : Unlinked fun s => g (f s) := fun s x => by
  show g (f (s.setLink x)) = _
  rw [hf, hg]

theorem foldl {α : Type} {f : State → α → State} (hf : ∀ a, Unlinked (f · a)) (l : List α) : Unlinked fun s => l.foldl f s := by
  induction l with
  | nil => exact fun _ _ => rfl
  | cons a l ih => exact (hf a).comp ih

theorem stageIn (b : BufId) (x : Spot) (ws : List WriteWord) : Unlinked (State.stageIn · b x ws) := fun s l => by
  have closes : (s.setLink l).closes x ws = s.closes x ws := rfl
  unfold State.stageIn
  beta_reduce
  rw [closes]
  dsimp only
  cases s.closes x ws <;> rfl

theorem openUpdate (p : Port) (x : Spot) (ws : List WriteWord) : Unlinked (State.openUpdate · p x ws) := fun s l => by
  have free : (s.setLink l).freeBuffer = s.freeBuffer := rfl
  unfold State.openUpdate
  beta_reduce
  rw [free]
  cases s.freeBuffer with
  | none => rfl
  | some b => exact stageIn b x ws (s.openBuffer p x b) l

theorem examineHold (h : HeldWrite) : Unlinked (State.examineHold · h) := fun s l => by
  have can : (s.setLink l).canOpen h.port = s.canOpen h.port := rfl
  have opened := openUpdate h.port h.spot h.words (s.setPool { s.pool with holds := s.pool.holds.erase h }) l
  unfold State.examineHold
  beta_reduce
  rw [can]
  split
  · exact congrArg (State.finishPiece · h.port h.words.length .okay []) opened
  · rfl

theorem examineHolds : Unlinked State.examineHolds := fun s => foldl examineHold s.pool.holds s

theorem lowerWaits (l : List BufId) : Unlinked (State.lowerWaits · l) := foldl (fun _ _ _ => rfl) l

theorem endCapture (c : Capture) : Unlinked (State.endCapture · c) := fun s =>
  lowerWaits c.holdSet (s.setCaptures (s.captures.erase c))

theorem releaseView (p : Port) (v : ViewIx) : Unlinked (State.releaseView · p v) := fun s l => by
  have captures : (s.setLink l).captures = s.captures := rfl
  unfold State.releaseView
  beta_reduce
  rw [captures]
  dsimp only
  cases s.captures.find? (fun c => c.fills p v) with
  | none => rfl
  | some c =>
    dsimp only
    cases c.state with
    | queued => exact endCapture c (s.freeView p v) l
    | requesting => exact endCapture c ((s.freeView p v).setCaptureRequest none) l
    | reading => rfl

theorem releaseAndGiveBack (pv : Port × ViewIx) : Unlinked (State.releaseAndGiveBack · pv) := fun s l => by
  have released := releaseView pv.1 pv.2 s l
  unfold State.releaseAndGiveBack
  dsimp only at released ⊢
  rw [released]
  have port : ((s.releaseView pv.1 pv.2).setLink l).port pv.1 = (s.releaseView pv.1 pv.2).port pv.1 := rfl
  rw [port]
  cases ((s.releaseView pv.1 pv.2).port pv.1).service.piece with
  | none => rfl
  | some x => dsimp only; split <;> rfl

theorem releaseAll (vs : List (Port × ViewIx)) : Unlinked (State.releaseAll · vs) := foldl releaseAndGiveBack vs

theorem giveBackAwaiting (r : RegionId) : Unlinked (State.giveBackAwaiting · r) :=
  foldl (fun p s l => by
    have awaits : (s.setLink l).awaitsViewIn r p = s.awaitsViewIn r p := rfl
    dsimp only
    rw [awaits]
    split <;> rfl) allPorts

end Unlinked

/-- An owner neither reads nor writes the link (08 R145). -/
theorem State.retireTaken_setLink (s : State) (x : Link) (r : RegionId) (m : DrainMode) :
    (s.setLink x).retireTaken r m = ((s.retireTaken r m).1.setLink x, (s.retireTaken r m).2) := by
  have views := (Unlinked.releaseAll (s.viewsWhere fun _ y => y.region = r)).comp (Unlinked.giveBackAwaiting r)
  have unviewed : (s.setLink x).unviewed r = (s.unviewed r).setLink x := views (s.setRegionState r .draining) x
  have undone : (s.setLink x).undone r m = (s.undone r m).setLink x := by
    unfold State.undone
    rw [unviewed]
    cases m with
    | abandon => exact Unlinked.foldl (fun _ _ _ => rfl) (s.gatheringIn r) (s.unviewed r) x
    | close => exact Unlinked.foldl (fun _ _ _ => rfl) (s.gatheringIn r) (s.unviewed r) x
  have drained : (s.setLink x).drained r m = (s.drained r m).setLink x := by
    unfold State.drained
    rw [undone]
    exact Unlinked.foldl (fun _ _ _ => rfl) ((s.undone r m).holdsIn r) (s.undone r m) x
  refine Prod.ext ?_ rfl
  show ((s.setLink x).retireTaken r m).1 = (s.retireTaken r m).1.setLink x
  rw [State.retireTaken_eq, State.retireTaken_eq, drained]
  exact Unlinked.examineHolds _ x

theorem State.flushTaken_setLink (s : State) (x : Link) (p : Port) :
    (s.setLink x).flushTaken p = ((s.flushTaken p).1.setLink x, (s.flushTaken p).2) := by
  have flushed := ((Unlinked.foldl (f := fun s b => s.abandonBuffer .flush b) (fun _ _ _ => rfl) (s.pool.gathering.get p)).comp
    (Unlinked.releaseAll (s.viewsOfPort p))).comp Unlinked.examineHolds
  exact Prod.ext (flushed s x) rfl

theorem State.doRestart_setLink (s : State) (x : Link) :
    (s.setLink x).doRestart = (s.doRestart.1.setLink x, s.doRestart.2) := by
  have discarded : Unlinked fun t => (t.releaseAll (s.viewsWhere fun _ _ => true)).setEvents s.events.restarted :=
    (Unlinked.releaseAll (s.viewsWhere fun _ _ => true)).comp (g := (State.setEvents · s.events.restarted)) fun _ _ => rfl
  exact Prod.ext ((discarded.comp Unlinked.examineHolds) s.discardUpdates x) rfl

theorem State.doClearRegion_setLink (s : State) (x : Link) (b : Byte) :
    (s.setLink x).doClearRegion b = ((s.doClearRegion b).1.setLink x, (s.doClearRegion b).2) := by
  unfold State.doClearRegion
  cases regionOfByte b with
  | none => rfl
  | some r =>
    dsimp only
    show (if (s.region r).state = .defined then _ else _) = _
    split
    · exact Prod.ext (Unlinked.foldl (f := fun s i => s.setWatch i .unusedValues) (fun _ _ _ => rfl) (s.watchesOf r)
        (s.setRegion r .emptyEntry) x) rfl
    · rfl

theorem State.carryOut_setLink (s : State) (x : Link) (c : Command) :
    (s.setLink x).carryOut c = ((s.carryOut c).1.setLink x, (s.carryOut c).2) := by
  cases c with
  | identify => rfl
  | defineRegion d =>
    show (s.setLink x).doDefineRegion d = _
    simp only [State.carryOut]
    unfold State.doDefineRegion
    cases regionOfByte d.regionIndex with
    | none => rfl
    | some r =>
      show (if (s.region r).state = .empty ∨ (s.region r).state = .defined then _ else _) = _
      dsimp only
      split_ifs <;> rfl
  | activate b =>
    simp only [State.carryOut]
    unfold State.doActivate
    cases regionOfByte b with
    | none => rfl
    | some r =>
      have conflicts : (s.setLink x).conflicts r = s.conflicts r := rfl
      show (if (s.region r).state = .defined then _ else _) = _
      dsimp only
      rw [conflicts]
      split_ifs <;> rfl
  | retire b m =>
    simp only [State.carryOut]
    unfold State.doRetire
    cases regionOfByte b with
    | none => rfl
    | some r =>
      show (if (s.region r).state = .active then _ else _) = _
      dsimp only
      split_ifs
      · cases modeOfCode m with
        | none => rfl
        | some m => exact s.retireTaken_setLink x r m
      · rfl
  | readRegion b =>
    simp only [State.carryOut]
    unfold State.doReadRegion
    cases regionOfByte b <;> rfl
  | clearRegion b => exact s.doClearRegion_setLink x b
  | readRecord b k =>
    simp only [State.carryOut]
    unfold State.doReadRecord
    cases regionOfByte b with
    | none => rfl
    | some r =>
      show (if (s.region r).state = .active then if k.toNat < (s.definition r).recordCount then _ else _ else _) = _
      dsimp only
      split_ifs <;> rfl
  | clearTorn b k =>
    simp only [State.carryOut]
    unfold State.doClearTorn
    cases regionOfByte b with
    | none => rfl
    | some r =>
      show (if (s.region r).state = .active then if k.toNat < (s.definition r).recordCount then _ else _ else _) = _
      dsimp only
      split_ifs <;> rfl
  | setWatch w =>
    simp only [State.carryOut]
    unfold State.doSetWatch
    cases watchOfByte w.watch with
    | none => rfl
    | some i =>
      cases regionOfByte w.region with
      | none => rfl
      | some r =>
        show (if (s.region r).state = .empty then _ else if legalWatch (s.definition r) w then _ else _) = _
        dsimp only
        split_ifs <;> rfl
  | clearWatch b =>
    simp only [State.carryOut]
    unfold State.doClearWatch
    cases watchOfByte b <;> rfl
  | readWatch b =>
    simp only [State.carryOut]
    unfold State.doReadWatch
    cases watchOfByte b <;> rfl
  | readEvents n =>
    simp only [State.carryOut]
    unfold State.doReadEvents
    split_ifs <;> rfl
  | setEventMasks q a =>
    simp only [State.carryOut]
    unfold State.doSetEventMasks
    split_ifs <;> rfl
  | flushPort b =>
    simp only [State.carryOut]
    unfold State.doFlushPort
    cases portOfCode b with
    | none => rfl
    | some p => exact s.flushTaken_setLink x p
  | restart => exact s.doRestart_setLink x

/-- What a command does is the same whatever link state it is found in: its reply writes that. -/
theorem State.execute_setLink (s : State) (x : Link) (y : LinkState) (c : Command) :
    (s.setLink { x with state := y }).execute c = (s.setLink x).execute c := by
  unfold State.execute
  rw [State.carryOut_setLink, State.carryOut_setLink]
  cases (s.carryOut c).2 <;> rfl

/-- COMMAND_FRAME of a command's own bytes with a ready link: the command executes at the frame's end. -/
theorem State.frame_commandBytes (ready : s.linkReady) (c : Command) : s.frame 0x3C (.whole (commandBytes c)) =
    (s.setLink { s.link with presented := zeros (8 * frameLength c) }).execute c := by
  have whole : (commandBytes c).take 23 = commandBytes c := List.take_of_length_le (commandBytes_length_le c)
  rw [State.frame_command ready, whole]
  unfold State.endReceiving
  rw [State.setLink_link]
  dsimp only
  rw [judge_commandBytes]
  exact s.execute_setLink { s.link with presented := zeros (8 * frameLength c) } _ c

theorem State.opened'_command_receiving {l : List Byte} {n : Nat} (h : s.link.state = .receiving l n) : s.opened' 0x3C =
    ((s.setLink { s.link with presented := zeros 8 }).setLastRefusal s.link.lastRefusal).setFrame (some .silent) := by
  unfold State.opened' State.takeOpener
  rw [if_pos rfl, State.setLink_link, h]
  rfl

/-- A command row is the whole COMMAND frame that spells it (log 4). -/
theorem State.sendCommand_eq_frame (s : State) (c : Command) : s.sendCommand c = s.frame 0x3C (.whole (commandBytes c)) := by
  cases line : s.hardResetLine with
  | true =>
    unfold State.sendCommand State.frame
    rw [line]
    rfl
  | false =>
    cases high : s.link.frame with
    | some x =>
      unfold State.sendCommand
      rw [line, high]
      rfl
    | none =>
      cases h : s.link.state with
      | idle => rw [s.sendCommand_ready c ⟨line, high, h⟩, State.frame_commandBytes ⟨line, high, h⟩]
      | receiving l n =>
        rw [State.frame_refuses line high (State.opened'_command_receiving h)]
        unfold State.sendCommand
        simp only [line, high, h, Bool.false_eq_true, if_false, State.refuses]
      | executing e =>
        rw [State.sendCommand_executing line high h, State.frame_refuses line high (State.opened'_command_executing h)]
        rfl
      | result out pos =>
        rw [State.sendCommand_result line high h, State.frame_refuses line high (State.opened'_command_result h)]
        rfl

/-- Settles O34: a command's row sends its bytes as one frame, and no owner looks at the link. -/
theorem commandRowsAreWholeCommandFrames : Obligations.CommandRowsAreWholeCommandFrames :=
  ⟨fun c s => (exec_rowOf c s).trans (congrArg Host.Outcome.next (s.sendCommand_eq_frame c)),
    fun c _ ready => congrArg Host.Outcome.next (State.frame_commandBytes ready c)⟩

/-! ### The link in hard reset (08 R154) -/

/-- The row is a run of a frame. -/
def RunRow (f : FramePart) (i : Instr) : Prop :=
  i = .commandFrame f ∨ i = .resultFrame f ∨ i = .statusFrame f ∨ i = .abandonFrame f ∨ ∃ o, i = .badOpener o f

theorem exec_runRow {f : FramePart} {i : Instr} (h : RunRow f i) (s : State) : ∃ o, exec i s = .next (s.frame o f) := by
  obtain rfl | rfl | rfl | rfl | ⟨o, rfl⟩ := h
  · exact ⟨0x3C, rfl⟩
  · exact ⟨0x5A, rfl⟩
  · exact ⟨0x69, rfl⟩
  · exact ⟨0x96, rfl⟩
  · exact ⟨o, rfl⟩

theorem State.frame_in_reset (line : s.hardResetLine = true) (o : Byte) (f : FramePart) : s.frame o f = s.setLink { s.link with
    presented := (if f.opens = .goesOn then s.link.presented else []) ++
      zeros ((if f.opens = .opener then 8 else 0) + 8 * f.bytes.length + (if f.ends then f.cut.val else 0)) } := by
  unfold State.frame State.presentInReset
  rw [if_pos line]
  cases f.opens with
  | goesOn => simp only [if_pos, reduceCtorEq, if_false, Nat.zero_add]
  | opener => simp only [if_pos, reduceCtorEq, if_false, List.nil_append, zeros_append, Nat.add_assoc]
  | shortOpener => simp only [reduceCtorEq, if_false, Nat.zero_add]

/-- A run in a chip-select period open since hard reset's end: 0x00, and nothing else (08 R154; log 11). -/
theorem State.frame_noFrame (line : s.hardResetLine = false) (h : s.link.frame = some .noFrame) (o : Byte) {f : FramePart}
    (long : f.opens ≠ .shortOpener) : s.frame o f = s.setLink { s.link with
      frame := if f.ends then none else some .noFrame
      presented := s.link.presented ++
        zeros ((if f.opens = .opener then 8 else 0) + 8 * f.bytes.length + (if f.ends then f.cut.val else 0)) } := by
  unfold State.frame
  rw [line, if_neg Bool.false_ne_true]
  cases opens : f.opens with
  | shortOpener => exact absurd opens long
  | goesOn =>
    refine (State.endRun_noFrame h f).trans ?_
    simp only [reduceCtorEq, if_false, Nat.zero_add]
  | opener =>
    have byte : s.clockOpener o = s.present (zeros 8) := by
      unfold State.clockOpener
      rw [h]
      exact State.clockByte_mute (.inr (.inl rfl)) h o
    rw [byte]
    refine (State.endRun_noFrame (s := s.present (zeros 8)) h f).trans ?_
    show s.setLink { s.link with frame := _, presented := s.link.presented ++ zeros 8 ++ zeros _ } = _
    rw [List.append_assoc, zeros_append, if_pos rfl, Nat.add_assoc]

theorem State.frame_noFrame_short (line : s.hardResetLine = false) (h : s.link.frame = some .noFrame) (o : Byte) {f : FramePart}
    (short : f.opens = .shortOpener) : s.frame o f = s.setLink { s.link with
      frame := none, presented := s.link.presented ++ zeros f.cut.val } := by
  unfold State.frame
  rw [line, if_neg Bool.false_ne_true, short]
  dsimp only
  unfold State.shortOpener
  rw [h]
  dsimp only
  rw [State.clockCut_mute (.inr (.inl rfl)) h]
  exact State.raise_noFrame (s := s.present _) h

/-- Settles O4: with the line asserted every arrival is held off, and its fall leaves a period open then to its end. -/
theorem hardResetHoldsThePartUntilDeassertion : Obligations.HardResetHoldsThePartUntilDeassertion := by
  refine ⟨fun s line => ⟨fun p r => ?_, ?_, ?_, fun c => ?_, fun f i h => ?_⟩, fun low s => ⟨fun line => ?_, fun line => ?_⟩,
    fun s line period => ⟨fun f i h => ⟨fun long => ?_, fun short => ?_⟩, fun c => ?_⟩⟩
  · show Host.Outcome.next (if s.canTake p && r.wellFormed then _ else s) = _
    rw [State.canTake, line]
    rfl
  · exact congrArg Host.Outcome.next (if_pos line)
  · exact congrArg Host.Outcome.next (s.tick_in_reset line)
  · rw [exec_rowOf, State.sendCommand_eq_frame, State.frame_in_reset line]
    show Host.Outcome.next (s.setLink { s.link with presented := zeros (8 + 8 * (commandBytes c).length) }) = _
    rw [show 8 + 8 * (commandBytes c).length = 8 * frameLength c by rw [frameLength]; omega]
  · obtain ⟨o, e⟩ := exec_runRow h s
    rw [e, State.frame_in_reset line]
  · exact congrArg Host.Outcome.next (if_pos line)
  · exact congrArg Host.Outcome.next (if_neg (by rw [line]; exact Bool.false_ne_true))
  · obtain ⟨o, e⟩ := exec_runRow h s
    rw [e, State.frame_noFrame line period o long]
  · obtain ⟨o, e⟩ := exec_runRow h s
    rw [e, State.frame_noFrame_short line period o short]
  · rw [exec_rowOf, State.sendCommand_eq_frame, State.frame_noFrame line period 0x3C (f := .whole (commandBytes c)) nofun]
    show Host.Outcome.next (s.setLink { s.link with
      frame := none, presented := s.link.presented ++ zeros (8 + 8 * (commandBytes c).length) }) = _
    rw [show 8 + 8 * (commandBytes c).length = 8 * frameLength c by rw [frameLength]; omega]

end

end Sys2Proof.Machine

/-! SUPPORT. The commands that answer at once (01, 07, 08): what each does is its owner's, and its row is the answer. -/

namespace Sys2Proof.Machine

section
variable {s t : State} {c : Command}

/-- A command whose owner fails it changes nothing but the link. -/
theorem exec_fails {code : Completion} (rest : s.AtRest) (ready : s.linkReady) (h : s.carryOut c = (s, .fail code)) :
    exec (rowOf c) s = .next (s.returns c code []) := by
  rw [exec_rowOf, State.sendCommand_fail ready rest fun x => by rw [State.carryOut_setLink, h]]

/-- A command whose owner answers DONE leaves what its owner leaves, and the answer. -/
theorem exec_done {data : List Byte} (ready : s.linkReady) (h : s.carryOut c = (t, .done data)) (rest : t.movable = [])
    (link : t.link = s.link) : exec (rowOf c) s = .next (t.returns c .done data) := by
  rw [exec_rowOf, State.sendCommand_done ready rest link fun x => by rw [State.carryOut_setLink, h]]

/-- A long command that is taken, and whose condition does not hold yet. -/
theorem exec_takes {e : Executing} (ready : s.linkReady) (h : s.carryOut c = (t, .long e)) (rest : t.movable = [])
    (link : t.link = s.link) (awaits : (t.takes c e).completeLong = t.takes c e) : exec (rowOf c) s = .next (t.takes c e) := by
  have concluded : (t.setLink { s.link with presented := zeros (8 * frameLength c) }).conclude (.long e) = t.takes c e := by
    unfold State.takes
    rw [link]
    rfl
  have still : (t.takes c e).movable = [] := rest
  rw [exec_rowOf, s.sendCommand_ready c ready, State.execute, State.carryOut_setLink, h, concluded, State.settle,
    State.route_rest _ still, awaits]

theorem regionOfByte_eq_none {b : Byte} (h : 15 < b.toNat) : regionOfByte b = none := by
  unfold regionOfByte
  exact dif_neg (by omega)

/-! ### The checks of the region commands (01 R1) -/

/-- Settles O40: each of the seven owners looks at the index, then at the state, before anything else. -/
theorem regionCommandsCheckIndexThenState : Obligations.RegionCommandsCheckIndexThenState := by
  intro s c b allowed rest ready kind
  refine ⟨fun outside => exec_fails rest ready ?_, fun r h n => exec_fails rest ready ?_⟩
  · have none := regionOfByte_eq_none outside
    obtain ⟨d, rfl, rfl, -⟩ | ⟨rfl, -⟩ | ⟨m, rfl, -⟩ | ⟨rfl, -⟩ | ⟨rfl, -⟩ | ⟨k, rfl, -⟩ | ⟨k, rfl, -⟩ := kind
    · simp only [State.carryOut, State.doDefineRegion, none]
    · simp only [State.carryOut, State.doActivate, none]
    · simp only [State.carryOut, State.doRetire, none]
    · simp only [State.carryOut, State.doReadRegion, none]
    · simp only [State.carryOut, State.doClearRegion, none]
    · simp only [State.carryOut, State.doReadRecord, none]
    · simp only [State.carryOut, State.doClearTorn, none]
  · have named := regionOfByte_eq h
    obtain ⟨d, rfl, rfl, rfl⟩ | ⟨rfl, rfl⟩ | ⟨m, rfl, rfl⟩ | ⟨rfl, rfl⟩ | ⟨rfl, rfl⟩ | ⟨k, rfl, rfl⟩ | ⟨k, rfl, rfl⟩ := kind
    · simp only [State.carryOut, State.doDefineRegion, named, if_neg n]
    · simp only [State.carryOut, State.doActivate, named, if_neg n]
    · simp only [State.carryOut, State.doRetire, named, if_neg n]
    · exact absurd trivial n
    · simp only [State.carryOut, State.doClearRegion, named, if_neg n]
    · simp only [State.carryOut, State.doReadRecord, named, if_neg n]
    · simp only [State.carryOut, State.doClearTorn, named, if_neg n]

/-! ### READ REGION and CLEAR REGION (01 R13, R14) -/

/-- Watches written one after another with the same value. -/
theorem State.setWatches_eq (s : State) (l : List WatchIx) (w : Watch) : ∃ v : Vector Watch 8,
    l.foldl (fun s i => s.setWatch i w) s = s.setEvents { s.events with watches := v } ∧
      ∀ i, cell v i = if i ∈ l then w else cell s.events.watches i := by
  induction l generalizing s with
  | nil => exact ⟨s.events.watches, rfl, fun i => (if_neg List.not_mem_nil).symm⟩
  | cons j l ih =>
    obtain ⟨v, e, h⟩ := ih (s.setWatch j w)
    refine ⟨v, e, fun i => ?_⟩
    have first : cell (s.setWatch j w).events.watches i = if i = j then w else cell s.events.watches i := cell_put ..
    rw [h, first]
    by_cases hj : i = j
    · simp [hj]
    · simp [hj]

theorem mem_watchesOf {r : RegionId} {i : WatchIx} : i ∈ s.watchesOf r ↔
    (cell s.events.watches i).state ≠ .unused ∧ (cell s.events.watches i).region = r := by
  have all : i ∈ allWatches := by revert i; decide
  unfold State.watchesOf
  rw [List.mem_filter, Bool.and_eq_true, bne_iff_ne, beq_iff_eq]
  exact and_iff_right all

/-- Settles O42: READ REGION's data is the entry's bytes, and CLEAR REGION writes the entry and the region's watches. -/
theorem regionsAreReadAndCleared : Obligations.RegionsAreReadAndCleared := by
  refine ⟨fun s b r rest ready h => ⟨?_, fun empty => by rw [empty]; decide⟩, fun s b r rest ready blank h defined => ?_⟩
  · refine exec_done (c := .readRegion b) ready ?_ rest.routers rfl
    simp only [State.carryOut, State.doReadRegion, regionOfByte_eq h]
  · obtain ⟨v, watches, cells⟩ := (s.setRegion r .emptyEntry).setWatches_eq (s.watchesOf r) .unusedValues
    have count : s.watchesOf r = allWatches.filter fun i =>
        (cell s.events.watches i).state ≠ .unused ∧ (cell s.events.watches i).region = r := by
      refine List.filter_congr fun i _ => ?_
      rw [Bool.eq_iff_iff, Bool.and_eq_true, bne_iff_ne, beq_iff_eq, decide_eq_true_iff]
    have row := exec_done (c := .clearRegion b) (t := (s.setRegion r .emptyEntry).setEvents { s.events with watches := v })
      (data := [byteOf (s.watchesOf r).length]) ready
      (by simp only [State.carryOut, State.doClearRegion, regionOfByte_eq h, if_pos defined]; rw [watches]; rfl) rest.routers rfl
    refine ⟨_, row, ?_, fun i e => ?_, fun i n => ?_⟩
    · rw [count]
      rfl
    · refine (cells i).trans ?_
      split
      · rfl
      · next out =>
        refine blank i ?_
        by_contra n
        exact out (mem_watchesOf.2 ⟨n, e⟩)
    · exact (cells i).trans (if_neg fun m => n (mem_watchesOf.1 m).2)

/-! ### ACTIVATE (01 R7) -/

theorem RegionState.owning_iff {x : RegionState} : x.owning = true ↔ x = .activating ∨ x = .active ∨ x = .draining := by
  cases x <;> decide

theorem State.conflicts_iff {r : RegionId} : s.conflicts r = true ↔ ∃ q, q ≠ r ∧
    ((s.region q).state = .activating ∨ (s.region q).state = .active ∨ (s.region q).state = .draining) ∧
    (shareAddress (s.definition r) (s.definition q) ∨ shareEntry (s.definition r) (s.definition q)) := by
  unfold State.conflicts
  rw [List.any_eq_true]
  simp only [mem_allRegions, true_and, Bool.and_eq_true, bne_iff_ne, overlaps_iff, RegionState.owning_iff, and_assoc]

/-- Settles O43: the comparison is that of spans and version ranges, and with an entry to fill the command stays in execution. -/
theorem activateComparesThenTakes : Obligations.ActivateComparesThenTakes := by
  intro s b r rest ready h defined entries conflict
  refine ⟨fun k => exec_fails (c := .activate b) rest ready ?_, fun n => ?_⟩
  · simp only [State.carryOut, State.doActivate, regionOfByte_eq h, if_pos defined, if_pos (State.conflicts_iff.2 k)]
  · refine exec_takes (c := .activate b) (t := s.setRegionState r .activating) ready ?_ rest.routers rfl ?_
    · have apart : ¬ s.conflicts r = true := mt State.conflicts_iff.1 n
      simp only [State.carryOut, State.doActivate, regionOfByte_eq h, if_pos defined, if_neg apart]
    · have definition : (s.setRegionState r .activating).definition r = s.definition r :=
        (congrArg Region.definition (s.setRegion_region_same r { s.region r with state := .activating })).trans rfl
      show (if ((s.setRegionState r .activating).definition r).recordCount ≤ 0 then _ else _) = _
      rw [definition, if_neg (by omega)]

/-! ### READ RECORD and CLEAR TORN (01 R20, R21) -/

/-- The part of a list of equal pieces that one of them is. -/
theorem flatMap_piece {α β : Type} {f : α → List β} {n : Nat} (length : ∀ a, (f a).length = n) {l : List α} {i : Nat} {a : α}
    (h : l[i]? = some a) : ((l.flatMap f).drop (n * i)).take n = f a := by
  induction l generalizing i with
  | nil => cases h
  | cons b l ih =>
    cases i with
    | zero =>
      obtain rfl : b = a := Option.some.inj h
      rw [List.flatMap_cons, Nat.mul_zero, List.drop_zero, List.take_left' (length b)]
    | succ i =>
      rw [List.flatMap_cons, Nat.mul_succ, Nat.add_comm, ← List.drop_drop, List.drop_left' (length b)]
      exact ih h

theorem flatMap_length {α β : Type} {f : α → List β} {n : Nat} (length : ∀ a, (f a).length = n) (l : List α) :
    (l.flatMap f).length = n * l.length := by
  rw [List.length_flatMap]
  simp only [length]
  rw [List.map_const', List.sum_replicate, smul_eq_mul, Nat.mul_comm]

/-- The record's buffers, once each (01 R21). -/
theorem State.PoolLawful.buffersOf_nodup (pool : s.PoolLawful) (r : RegionId) (k : Nat) : (s.buffersOf r k).Nodup := by
  unfold State.buffersOf
  refine List.nodup_append.2 ⟨pool.close_nodup.filter _, ?_, fun b hb c hc e => ?_⟩
  · cases s.gatheringOf r k <;> simp
  obtain ⟨gathering, -⟩ := s.gatheringOf_eq_some (Option.mem_toList.1 hc)
  have closed := (pool.close_iff b).1 (List.mem_filter.1 hb).1
  rw [e, gathering] at closed
  obtain h | h := closed <;> cases h

theorem Buffer.ofRecord_iff {x : Buffer} {r : RegionId} {k : Nat} : x.ofRecord r k = true ↔ x.state ≠ .free ∧ x.region = r ∧ x.record = k := by
  simp only [Buffer.ofRecord, Bool.and_eq_true, bne_iff_ne, beq_iff_eq, and_assoc]

theorem State.PoolLawful.mem_buffersOf (pool : s.PoolLawful) {r : RegionId} {k : Nat} {b : BufId} : b ∈ s.buffersOf r k ↔
    (s.buffer b).ofRecord r k = true ∧ ((s.buffer b).state ≠ .gathering ∨ s.gatheringOf r k = some b) := by
  unfold State.buffersOf State.basisOf
  rw [List.mem_append, List.mem_filter, pool.close_iff, Option.mem_toList]
  constructor
  · rintro (⟨closed, record⟩ | gathering)
    · exact ⟨record, .inl (by obtain e | e := closed <;> rw [e] <;> nofun)⟩
    · obtain ⟨state, region, record⟩ := s.gatheringOf_eq_some gathering
      exact ⟨Buffer.ofRecord_iff.2 ⟨by rw [state]; nofun, region, record⟩, .inr gathering⟩
  · rintro ⟨record, n | gathering⟩
    · have free := (Buffer.ofRecord_iff.1 record).1
      refine .inl ⟨?_, record⟩
      cases h : (s.buffer b).state with
      | free => exact absurd h free
      | gathering => exact absurd h n
      | closed => exact .inl rfl
      | committing => exact .inr rfl
    · exact .inr gathering

/-- Settles O46: READ RECORD's data is the entry, the record's buffers and the ports' views; CLEAR TORN writes the mark. -/
theorem recordsAreReadAndCleaned : Obligations.RecordsAreReadAndCleaned := by
  refine ⟨fun s b k r rest ready pool h active => ⟨fun outside => exec_fails (c := .readRecord b k) rest ready ?_, fun inside => ?_⟩,
    fun s b k r rest ready h active => ⟨fun outside => exec_fails (c := .clearTorn b k) rest ready ?_, fun inside => ?_⟩⟩
  · simp only [State.carryOut, State.doReadRecord, regionOfByte_eq h, if_pos active, if_neg (Nat.not_lt.2 outside)]
  · have length : ∀ c, (bufferBytes (s.buffer c)).length = 5 := fun _ => rfl
    have mark : codeOfMark (s.entry r k.toNat).torn = if (s.entry r k.toNat).torn = .torn then 0x01 else 0x00 := by
      cases (s.entry r k.toNat).torn <;> rfl
    have nodup := pool.buffersOf_nodup r k.toNat
    refine ⟨(s.buffersOf r k.toNat).flatMap fun c => bufferBytes (s.buffer c),
      allPorts.map fun p => if (s.viewOf p r k.toNat).isSome then (0x01 : Byte) else 0x00, ?_, flatMap_length length _, rfl,
      nodup.length_le_card, nodup, fun c => pool.mem_buffersOf, fun i c e => flatMap_piece length e, fun p => ?_⟩
    · refine exec_done (c := .readRecord b k) ready ?_ rest.routers rfl
      simp only [State.carryOut, State.doReadRecord, regionOfByte_eq h, if_pos active, if_pos inside]
      rw [← mark]
      rfl
    · have viewed : (s.viewOf p r k.toNat).isSome = true ↔ ∃ v, (s.view p v).ofRecord r k.toNat = true := by
        unfold State.viewOf
        rw [List.find?_isSome]
        exact ⟨fun ⟨v, _, e⟩ => ⟨v, e⟩, fun ⟨v, e⟩ => ⟨v, mem_allViews v, e⟩⟩
      simp only [← viewed]
      cases p <;> rfl
  · simp only [State.carryOut, State.doClearTorn, regionOfByte_eq h, if_pos active, if_neg (Nat.not_lt.2 outside)]
  · refine exec_done (c := .clearTorn b k) ready ?_ rest.routers rfl
    simp only [State.carryOut, State.doClearTorn, regionOfByte_eq h, if_pos active, if_pos inside]
    cases (s.entry r k.toNat).torn <;> rfl

/-! ### SET WATCH (07 R124) -/

theorem conditionOfCode_isSome (b : Byte) : (conditionOfCode b).isSome = true ↔ b.toNat ≤ 2 := by
  unfold conditionOfCode
  split_ifs with h0 h1 h2 <;> simp <;> bv_omega

theorem repeatOfCode_isSome (b : Byte) : (repeatOfCode b).isSome = true ↔ b.toNat ≤ 1 := by
  unfold repeatOfCode
  split_ifs with h0 h1 <;> simp <;> bv_omega

theorem codeOfCondition_conditionOfCode {b : Byte} (x : Condition) (h : b.toNat ≤ 2) :
    codeOfCondition ((conditionOfCode b).getD x) = b := by
  unfold conditionOfCode
  split_ifs with h0 h1 h2
  · exact h0.symm
  · exact h1.symm
  · exact h2.symm
  · bv_omega

theorem codeOfRepeat_repeatOfCode {b : Byte} (x : Repeat) (h : b.toNat ≤ 1) : codeOfRepeat ((repeatOfCode b).getD x) = b := by
  unfold repeatOfCode
  split_ifs with h0 h1
  · exact h0.symm
  · exact h1.symm
  · bv_omega

theorem legalWatch_iff {d : Definition} {w : WatchParams} : legalWatch d w = true ↔
    (w.record = 0xFFFF ∨ w.record.toNat < d.recordCount) ∧ w.offset.toNat < d.recordWords ∧ w.condition.toNat ≤ 2 ∧
      w.mode.toNat ≤ 1 := by
  simp only [legalWatch, Bool.and_eq_true, Bool.or_eq_true, beq_iff_eq, decide_eq_true_eq, conditionOfCode_isSome,
    repeatOfCode_isSome, and_assoc]

/-- Settles O47: the owner's four checks in order, and the watch it writes. -/
theorem setWatchChecksThenArms : Obligations.SetWatchChecksThenArms := by
  intro s w rest ready fails
  refine ⟨fun outside => ?_, fun i named => ⟨fun outside => ?_, fun r region => ⟨fun empty => ?_, fun kept =>
    ⟨fun n => ?_, fun ok => ⟨watchOf w r, ?_, rfl, rfl, rfl, rfl, rfl, rfl, codeOfCondition_conditionOfCode _ ok.2.2.1,
      codeOfRepeat_repeatOfCode _ ok.2.2.2⟩⟩⟩⟩⟩
  · refine exec_fails (c := .setWatch w) rest ready ?_
    simp only [State.carryOut, State.doSetWatch, watchOfByte_eq_none outside]
  · refine exec_fails (c := .setWatch w) rest ready ?_
    simp only [State.carryOut, State.doSetWatch, watchOfByte_eq named, regionOfByte_eq_none outside]
  · refine exec_fails (c := .setWatch w) rest ready ?_
    simp only [State.carryOut, State.doSetWatch, watchOfByte_eq named, regionOfByte_eq region, if_pos empty]
  · refine exec_fails (c := .setWatch w) rest ready ?_
    simp only [State.carryOut, State.doSetWatch, watchOfByte_eq named, regionOfByte_eq region, if_neg kept,
      if_neg (mt legalWatch_iff.1 n)]
  · refine exec_done (c := .setWatch w) ready ?_ rest.routers rfl
    simp only [State.carryOut, State.doSetWatch, watchOfByte_eq named, regionOfByte_eq region, if_neg kept,
      if_pos (legalWatch_iff.2 ok)]
    rfl

/-! ### READ EVENTS and SET EVENT MASKS (07 R132, R133) -/

theorem eventBytes_length (e : Event) : (eventBytes e).length = 14 := rfl

theorem attentionOf_iff {e : EventUnit} : attentionOf e = true ↔
    (∃ ev ∈ e.queue, e.attentionMask.getLsbD (kindBit ev.body) = true) ∨ (e.lost ≠ 0 ∧ e.attentionMask.getLsbD 8 = true) := by
  simp only [attentionOf, Bool.or_eq_true, List.any_eq_true, Bool.and_eq_true, bne_iff_ne]

theorem kindBit_lt (x : EventBody) : kindBit x < 9 := by
  cases x <;> exact Nat.le_of_ble_eq_true rfl

/-- Settles O49: READ EVENTS takes the queue's front; SET EVENT MASKS replaces both masks; and each re-evaluates the line. -/
theorem eventsAreReadAndMasked : Obligations.EventsAreReadAndMasked := by
  refine ⟨fun s n rest ready => ⟨fun outside => exec_fails (c := .readEvents n) rest ready ?_, fun lo hi => ?_⟩,
    fun s q a rest ready => ⟨fun outside => exec_fails (c := .setEventMasks q a) rest ready ?_, fun inside => ?_⟩⟩
  · exact if_neg (by omega)
  · have taken : (s.events.queue.take n.toNat).length = min n.toNat s.events.queue.length := List.length_take
    have front : ∀ i ev, i < min n.toNat s.events.queue.length → s.events.queue[i]? = some ev →
        (s.events.queue.take n.toNat)[i]? = some ev := fun i ev lt e => by
      rw [List.getElem?_take_of_lt (by omega)]
      exact e
    have dropped : s.events.queue.drop n.toNat = s.events.queue.drop (min n.toNat s.events.queue.length) := by
      obtain h | h := Nat.le_total n.toNat s.events.queue.length
      · rw [min_eq_left h]
      · rw [min_eq_right h, List.drop_of_length_le h, List.drop_of_length_le (Nat.le_refl _)]
    refine ⟨EventUnit.reevaluate { s.events with queue := s.events.queue.drop n.toNat, lost := 0 },
      (s.events.queue.take n.toNat).flatMap eventBytes, ?_, ?_, rfl, ?_, fun i ev lt e => flatMap_piece eventBytes_length (front i ev lt e)⟩
    · rw [← taken]
      refine exec_done (c := .readEvents n) ready ?_ rest.routers rfl
      simp only [State.carryOut, State.doReadEvents, if_pos (And.intro lo hi)]
    · rw [← dropped]
      rfl
    · rw [flatMap_length eventBytes_length, taken]
  · exact if_neg (by omega)
  · have mask : ∀ i, i < 9 → (a.setWidth 9).getLsbD i = a.getLsbD i := fun i lt => by
      rw [BitVec.getLsbD_setWidth, decide_eq_true lt, Bool.true_and]
    refine ⟨EventUnit.reevaluate { s.events with queueMask := q, attentionMask := a.setWidth 9 }, ?_, rfl, mask, ?_⟩
    · refine exec_done (c := .setEventMasks q a) ready ?_ rest.routers rfl
      simp only [State.carryOut, State.doSetEventMasks, if_pos inside]
    · refine attentionOf_iff.trans ?_
      show ((∃ ev ∈ s.events.queue, (a.setWidth 9).getLsbD (kindBit ev.body) = true) ∨
        (s.events.lost ≠ 0 ∧ (a.setWidth 9).getLsbD 8 = true)) ↔ _
      simp only [mask _ (kindBit_lt _), mask 8 (by decide)]
      rfl

/-! ### Posting (07 R130) -/

/-- Settles O28: the three things that a posting can do. -/
theorem postingKeepsDropsOrLosesTheEvent : Obligations.PostingKeepsDropsOrLosesTheEvent := by
  intro s body r p k v t kept
  have events : t.events = s.events.post s.timebase body r p k v := rfl
  have bit : kept = s.events.queueMask.getLsbD (kindBit body) := rfl
  obtain ⟨off, e⟩ | ⟨on, room, e⟩ | ⟨on, full, e⟩ := s.events.post_cases s.timebase body r p k v <;> rw [← events] at e <;>
    rw [← bit] at *
  · exact ⟨fun _ => congrArg s.setEvents e, fun on => absurd (off.symm.trans on) Bool.false_ne_true,
      fun on => absurd (off.symm.trans on) Bool.false_ne_true, fun on => absurd (off.symm.trans on) Bool.false_ne_true⟩
  · rw [e]
    exact ⟨fun off => absurd (off.symm.trans on) Bool.false_ne_true, fun _ => ⟨rfl, rfl⟩, fun _ _ => ⟨rfl, rfl⟩, fun _ n => absurd room n⟩
  · rw [e]
    refine ⟨fun off => absurd (off.symm.trans on) Bool.false_ne_true, fun _ => ⟨rfl, rfl⟩, fun _ lt => absurd lt (by omega),
      fun _ _ le => ⟨rfl, ?_⟩⟩
    show (if s.events.lost < 255 then s.events.lost + 1 else 255) = _
    split <;> omega

end

end Sys2Proof.Machine

/-! SUPPORT. What a step's routing does from rest (02 R25 to R28): when a router can move, when a long command waits, and the moves of
one port alone. -/

namespace Sys2Proof.Machine

section
variable {s t u : State} {p q : Port}

/-! ### Which routers can move -/

theorem mem_allPorts (p : Port) : p ∈ allPorts := by cases p <;> decide

theorem State.movable_eq_nil : s.movable = [] ↔ ∀ p, s.canAdvance p = false := by
  unfold State.movable
  rw [List.filter_eq_nil_iff]
  exact ⟨fun h p => Bool.eq_false_iff.2 (h p (mem_allPorts p)), fun h p _ => Bool.eq_false_iff.1 (h p)⟩

/-- Where one port's router can move and no other's, it alone is movable. -/
theorem State.movable_only (can : s.canAdvance p = true) (others : ∀ q, q ≠ p → s.canAdvance q = false) : s.movable = [p] := by
  have h : ∀ q, q ≠ p → s.canAdvance q = true → False := fun q ne e => Bool.eq_false_iff.1 (others q ne) e
  unfold State.movable allPorts
  cases p
  · rw [List.filter_cons_of_pos can, List.filter_cons_of_neg (h .u1 (by decide)), List.filter_cons_of_neg (h .u2 (by decide))]
    rfl
  · rw [List.filter_cons_of_neg (h .u0 (by decide)), List.filter_cons_of_pos can, List.filter_cons_of_neg (h .u2 (by decide))]
    rfl
  · rw [List.filter_cons_of_neg (h .u0 (by decide)), List.filter_cons_of_neg (h .u1 (by decide)), List.filter_cons_of_pos can]
    rfl

theorem State.viewToOpen_congr (h : t.views.get p = s.views.get p) : t.viewToOpen p = s.viewToOpen p := by
  unfold State.viewToOpen State.view
  rw [h]

/-- Whether a router can move is read from its port's queue and piece and its views. -/
theorem State.canAdvance_congr (port : t.port p = s.port p) (views : t.views.get p = s.views.get p) :
    t.canAdvance p = s.canAdvance p := by
  unfold State.canAdvance
  rw [port, State.viewToOpen_congr views]

/-- A port with nothing queued does not move. -/
theorem State.canAdvance_empty (h : (s.port p).queue = []) : s.canAdvance p = false := by
  unfold State.canAdvance
  rw [h]

/-- A port whose request has no piece outstanding moves. -/
theorem State.canAdvance_ready {r : Request} {l : List Request} (queue : (s.port p).queue = r :: l)
    (piece : (s.port p).service.piece = none) : s.canAdvance p = true := by
  unfold State.canAdvance
  rw [queue, piece]

/-- A port whose piece is outstanding moves only if the piece awaits a view that can be had. -/
theorem State.canAdvance_waiting {x : Piece} (piece : (s.port p).service.piece = some x)
    (h : x.wait = .forView → s.viewToOpen p = none) : s.canAdvance p = false := by
  unfold State.canAdvance
  rw [piece]
  cases (s.port p).queue with
  | nil => rfl
  | cons r l =>
    by_cases w : x.wait = .forView
    · simp [h w]
    · simp [w]

/-! ### When a long command waits (08 R145) -/

/-- The long command that executes, if one does, waits for its condition (01 R8, R12; 02 R41; 08 R153). -/
structure State.Awaits (s : State) : Prop where
  activate : ∀ r n, s.link.state = .executing (.activate r n) → n < (s.definition r).recordCount
  retire : ∀ r a c v, s.link.state = .executing (.retire r a c v) → ∃ b, (s.buffer b).state ≠ .free ∧ (s.buffer b).region = r
  flushPort : ∀ a v w, s.link.state = .executing (.flushPort a v w) → w = true
  restart : ∀ g c v f m k, s.link.state = .executing (.restart g c v f m k) → m = true ∨ k = true

theorem State.regionIdle_eq_false {r : RegionId} : s.regionIdle r = false ↔ ∃ b, (s.buffer b).state ≠ .free ∧ (s.buffer b).region = r := by
  unfold State.regionIdle
  rw [List.all_eq_false]
  simp only [mem_allBuffers, true_and, Bool.or_eq_true, decide_eq_true_eq, bne_iff_ne, not_or, not_not]

theorem State.formResult_ne (c : Completion) (d : List Byte) {e : Executing} (h : s.link.state = .executing e) {v : Vector Region 16} :
    (s.setRegions v).formResult c d ≠ s := fun k => by
  have state := congrArg (fun x => x.link.state) k
  rw [h] at state
  cases state

theorem State.completeLong_eq_self : s.completeLong = s ↔ s.Awaits := by
  have result : ∀ {e : Executing} {v : Vector Region 16} {d : List Byte}, s.link.state = .executing e →
      ¬ (s.setRegions v).formResult .done d = s := fun e => State.formResult_ne _ _ e
  constructor
  · intro h
    refine ⟨fun r n e => ?_, fun r a c v e => ?_, fun a v w e => ?_, fun g c v f m k e => ?_⟩
    · by_contra n'
      unfold State.completeLong at h
      simp only [e, if_pos (Nat.not_lt.1 n')] at h
      exact result e h
    · refine State.regionIdle_eq_false.1 (Bool.eq_false_iff.2 fun idle => ?_)
      unfold State.completeLong at h
      simp only [e, if_pos idle] at h
      exact result e h
    · by_contra n
      unfold State.completeLong at h
      simp only [e, if_neg n] at h
      exact result (v := s.regions) e h
    · rw [← Bool.or_eq_true]
      by_contra n
      unfold State.completeLong at h
      simp only [e, if_neg n] at h
      exact result (v := s.regions) e h
  · intro h
    obtain e | ⟨r, n, e, le, -⟩ | ⟨r, a, c, v, e, idle, -⟩ | ⟨a, v, e, -⟩ | ⟨g, c, v, f, e, -⟩ := s.completeLong_cases
    · exact e
    · exact absurd (h.activate r n e) (Nat.not_lt.2 le)
    · exact absurd idle (Bool.eq_false_iff.1 (State.regionIdle_eq_false.2 (h.retire r a c v e)))
    · exact absurd (h.flushPort a v _ e) Bool.false_ne_true
    · exact absurd (h.restart g c v f _ _ e) (by decide)

theorem State.AtRest.awaits (h : s.AtRest) : s.Awaits := State.completeLong_eq_self.1 h.link

theorem State.AtRest.still (h : s.AtRest) (p : Port) : s.canAdvance p = false := State.movable_eq_nil.1 h.routers p

theorem State.AtRest.intro (still : ∀ p, s.canAdvance p = false) (awaits : s.Awaits) : s.AtRest :=
  ⟨State.movable_eq_nil.2 still, State.completeLong_eq_self.2 awaits⟩

/-- A command waits on, where the link and the region table stand and no buffer of a region has been freed. -/
theorem State.Awaits.carry (h : s.Awaits) (link : t.link = s.link) (regions : t.regions = s.regions)
    (busy : ∀ b, (s.buffer b).state ≠ .free → (t.buffer b).state ≠ .free ∧ (t.buffer b).region = (s.buffer b).region) : t.Awaits where
  activate r n e := by
    have d : t.definition r = s.definition r := by
      unfold State.definition State.region
      rw [regions]
    rw [d]
    exact h.activate r n (link ▸ e)
  retire r a c v e := by
    obtain ⟨b, used, named⟩ := h.retire r a c v (link ▸ e)
    exact ⟨b, (busy b used).1, (busy b used).2.trans named⟩
  flushPort a v w e := h.flushPort a v w (link ▸ e)
  restart g c v f m k e := h.restart g c v f m k (link ▸ e)

theorem State.Awaits.of_pool (h : s.Awaits) (link : t.link = s.link) (regions : t.regions = s.regions) (pool : t.pool = s.pool) :
    t.Awaits :=
  h.carry link regions fun b n => by
    have e : t.buffer b = s.buffer b := by unfold State.buffer; rw [pool]
    rw [e]
    exact ⟨n, rfl⟩

/-- With no long command in execution, none waits. -/
theorem State.Awaits.of_ready (h : ∀ e, s.link.state ≠ .executing e) : s.Awaits :=
  ⟨fun _ _ e => absurd e (h _), fun _ _ _ _ e => absurd e (h _), fun _ _ _ e => absurd e (h _), fun _ _ _ _ _ _ e => absurd e (h _)⟩

/-- Rest is kept by what leaves the ports, the views, the link and the region table, and frees no buffer. -/
theorem State.AtRest.carry (h : s.AtRest) (ports : t.ports = s.ports) (views : t.views = s.views) (link : t.link = s.link)
    (regions : t.regions = s.regions)
    (busy : ∀ b, (s.buffer b).state ≠ .free → (t.buffer b).state ≠ .free ∧ (t.buffer b).region = (s.buffer b).region) : t.AtRest := by
  refine .intro (fun p => ?_) (h.awaits.carry link regions busy)
  have port : t.port p = s.port p := congrArg (fun x => x.get p) ports
  exact (State.canAdvance_congr port (congrArg (fun x => x.get p) views)).trans (h.still p)

theorem State.AtRest.carry_pool (h : s.AtRest) (ports : t.ports = s.ports) (views : t.views = s.views) (link : t.link = s.link)
    (regions : t.regions = s.regions) (pool : t.pool = s.pool) : t.AtRest :=
  h.carry ports views link regions fun b n => by
    have e : t.buffer b = s.buffer b := by unfold State.buffer; rw [pool]
    rw [e]
    exact ⟨n, rfl⟩

/-! ### The moves of one port (02 R26, R27) -/

/-- The routers make this many moves, all of one port, and then none can move. -/
inductive State.Turns (p : Port) : Nat → State → State → Prop
  | still {s : State} (h : s.movable = []) : State.Turns p 0 s s
  | move {n : Nat} {s t : State} (h : s.movable = [p]) (k : State.Turns p n (s.advance p) t) : State.Turns p (n + 1) s t

theorem runRouters_still (n : Nat) (h : s.movable = []) : runRouters n s = s := by
  cases n with
  | zero => rfl
  | succ n =>
    unfold runRouters
    rw [h]

theorem State.Turns.run {n m : Nat} (h : State.Turns p n s t) (le : n ≤ m) : runRouters m s = t := by
  induction h generalizing m with
  | still h => exact runRouters_still m h
  | @move n s t h k ih =>
    cases m with
    | zero => exact absurd le (Nat.not_succ_le_zero n)
    | succ m =>
      unfold runRouters
      rw [h]
      exact ih (Nat.le_of_succ_le_succ le)

theorem State.work_le {r : Request} (h : r ∈ (s.port p).queue) : 2 * r.beats + 3 ≤ s.workLeft := by
  have mine : 2 * r.beats + 3 ≤ ((s.port p).queue.map fun r => 2 * r.beats + 3).sum :=
    List.single_le_sum (fun _ _ => Nat.zero_le _) _ (List.mem_map_of_mem h)
  exact mine.trans (List.single_le_sum (fun _ _ => Nat.zero_le _) _ (List.mem_map_of_mem (mem_allPorts p)))

/-- What at most three moves of one port come to is what the step settles to. -/
theorem State.Turns.settle {n : Nat} {r : Request} (h : State.Turns p n s t) (le : n ≤ 3) (busy : r ∈ (s.port p).queue)
    (awaits : t.Awaits) : s.settle = t := by
  unfold State.settle State.route
  have work := State.work_le busy
  rw [h.run (by omega)]
  exact State.completeLong_eq_self.2 awaits

/-! ### Writing one port -/

@[simp] theorem PerPort.set_set {α : Type} (x : PerPort α) (p : Port) (a b : α) : (x.set p a).set p b = x.set p b := by cases p <;> rfl

@[simp] theorem State.setPort_setPort (s : State) (p : Port) (x y : PortState) : (s.setPort p x).setPort p y = s.setPort p y := by
  unfold State.setPort
  rw [PerPort.set_set]

theorem State.setPort_self {x : PortState} (h : s.port p = x) : s.setPort p x = s := by
  subst h
  unfold State.setPort State.port
  rw [PerPort.set_get_same]

theorem State.setPort_port_other (s : State) (x : PortState) (ne : q ≠ p) : (s.setPort p x).port q = s.port q :=
  (s.setPort_port p q x).trans (if_neg ne)

/-- The other ports of a part at rest still do not move, whatever is written to one port. -/
theorem State.AtRest.others (h : s.AtRest) (x : PortState) (ne : q ≠ p) : (s.setPort p x).canAdvance q = false :=
  (State.canAdvance_congr (s.setPort_port_other x ne) rfl).trans (h.still q)

theorem State.Awaits.setPort (h : s.Awaits) (p : Port) (x : PortState) : (s.setPort p x).Awaits := h.of_pool rfl rfl rfl

/-! ### A move's piece (02 R27) -/

theorem State.runLength_all {r : Request} {x : Option Spot} {k n : Nat}
    (h : ∀ j, j < n → samePiece x (s.spotOf (beatAddress r (k + j))) = true) : s.runLength r x k n = n := by
  induction n generalizing k with
  | zero => rfl
  | succ n ih =>
    have here : samePiece x (s.spotOf (beatAddress r k)) = true := h 0 (Nat.succ_pos n)
    unfold State.runLength
    rw [if_pos here, ih fun j lt => ?_, Nat.add_comm]
    rw [Nat.add_assoc, Nat.add_comm 1 j]
    exact h (j + 1) (Nat.succ_lt_succ lt)

theorem State.runLength_cut {r : Request} {x : Option Spot} {k m n : Nat} (lt : m < n)
    (h : ∀ j, j < m → samePiece x (s.spotOf (beatAddress r (k + j))) = true)
    (cut : samePiece x (s.spotOf (beatAddress r (k + m))) = false) : s.runLength r x k n = m := by
  induction m generalizing k n with
  | zero =>
    obtain ⟨n, rfl⟩ := Nat.exists_eq_succ_of_ne_zero (Nat.ne_of_gt lt)
    unfold State.runLength
    have other : ¬ samePiece x (s.spotOf (beatAddress r k)) = true := Bool.eq_false_iff.1 cut
    rw [if_neg other]
  | succ m ih =>
    obtain ⟨n, rfl⟩ := Nat.exists_eq_succ_of_ne_zero (Nat.ne_of_gt (Nat.zero_lt_of_lt lt))
    have here : samePiece x (s.spotOf (beatAddress r k)) = true := h 0 (Nat.succ_pos m)
    unfold State.runLength
    have later : ∀ j, j < m → samePiece x (s.spotOf (beatAddress r (k + 1 + j))) = true := fun j lt => by
      rw [Nat.add_assoc, Nat.add_comm 1 j]
      exact h (j + 1) (Nat.succ_lt_succ lt)
    have other : samePiece x (s.spotOf (beatAddress r (k + 1 + m))) = false := by
      rw [Nat.add_assoc, Nat.add_comm 1 m]
      exact cut
    rw [if_pos here, ih (Nat.lt_of_succ_lt_succ lt) later other, Nat.add_comm]

/-- The next piece of a request is these words: they lie where its first word does, and the word after them does not. -/
structure State.NextPiece (s : State) (r : Request) (k n : Nat) (x : Option Spot) : Prop where
  first : s.spotOf (beatAddress r k) = x
  pos : 0 < n
  fits : k + n ≤ r.beats
  same : ∀ j, 0 < j → j < n → samePiece x (s.spotOf (beatAddress r (k + j))) = true
  cut : k + n < r.beats → samePiece x (s.spotOf (beatAddress r (k + n))) = false

/-- Where words lie is read from the region table. -/
theorem State.spotOf_congr (h : t.regions = s.regions) (a : Word) : t.spotOf a = s.spotOf a := by
  unfold State.spotOf State.definition State.region
  rw [h]

theorem State.NextPiece.carry {r : Request} {k n : Nat} {x : Option Spot} (h : s.NextPiece r k n x) (regions : t.regions = s.regions) :
    t.NextPiece r k n x where
  first := (State.spotOf_congr regions _).trans h.first
  pos := h.pos
  fits := h.fits
  same j pos lt := by rw [State.spotOf_congr regions]; exact h.same j pos lt
  cut lt := by rw [State.spotOf_congr regions]; exact h.cut lt

/-- A port whose request has words left hands out its next piece. -/
theorem State.NextPiece.advance {r : Request} {k n : Nat} {x : Option Spot} {l : List Request} (h : s.NextPiece r k n x)
    (queue : (s.port p).queue = r :: l) (next : (s.port p).service.next = k) (inside : pastTop r = false) :
    s.advance p = s.handPiece p r k n x := by
  have pos := h.pos
  have fits := h.fits
  have same : ∀ j, j + 1 < n → samePiece x (s.spotOf (beatAddress r (k + 1 + j))) = true := fun j lt => by
    rw [Nat.add_assoc, Nat.add_comm 1 j]
    exact h.same (j + 1) (Nat.succ_pos j) lt
  have length : 1 + s.runLength r x (k + 1) (r.beats - (k + 1)) = n := by
    by_cases more : k + n < r.beats
    · have cut : samePiece x (s.spotOf (beatAddress r (k + 1 + (n - 1)))) = false := by
        rw [show k + 1 + (n - 1) = k + n by omega]
        exact h.cut more
      rw [State.runLength_cut (by omega) (fun j lt => same j (by omega)) cut]
      omega
    · rw [State.runLength_all fun j lt => same j (by omega)]
      omega
  unfold State.advance
  simp only [queue, next, if_neg (show ¬ r.beats ≤ k by omega), inside, Bool.false_eq_true, if_false, h.first, length]

/-- A port whose request has no words left responds. -/
theorem State.advance_responds {r : Request} {l : List Request} (queue : (s.port p).queue = r :: l)
    (done : r.beats ≤ (s.port p).service.next) : s.advance p = s.respond p r l := by
  unfold State.advance
  simp only [queue, if_pos done]

theorem pastTop_eq_false {r : Request} (h : r.address.toNat + 4 * (r.beats - 1) ≤ 0xFFFFFFFC) : pastTop r = false :=
  decide_eq_false (Nat.not_lt.2 h)

theorem Request.beats_pos {r : Request} (h : r.wellFormed = true) : 0 < r.beats := by
  simp only [Request.wellFormed, Bool.and_eq_true, decide_eq_true_eq] at h
  exact h.1.2

/-! ### A request that enters service at once -/

/-- The port with this request alone in its queue. -/
def State.taken (s : State) (p : Port) (r : Request) : State := s.setPort p { s.port p with queue := [r] }

@[simp] theorem State.taken_port (s : State) (p : Port) (r : Request) : (s.taken p r).port p = { s.port p with queue := [r] } :=
  s.setPort_port_same ..

theorem State.ServesAtOnce.enters {r : Request} (h : s.ServesAtOnce p r) : exec (.requestTaken p r) s = .next (s.taken p r).settle := by
  have e : exec (.requestTaken p r) s = .next (if s.canTake p && r.wellFormed then
    (s.setPort p { s.port p with queue := (s.port p).queue ++ [r] }).settle else s) := rfl
  rw [e, h.takes, h.formed, h.empty]
  rfl

/-- The outcome of a piece that is its request's last, and the response: the port is as it was but for the response (02 R26, R28, R37). -/
theorem State.finish_respond {r : Request} {n : Nat} (st : Status) (ws : List Word) (empty : (u.port p).queue = [])
    (fresh : (u.port p).service = .fresh) : ((u.taken p r).finishPiece p n st ws).respond p r [] =
      u.answered p ⟨st, if isRead r then ws else []⟩ := by
  have status : worst [st] = st := by cases st <;> rfl
  unfold State.respond State.finishPiece State.setService State.answered
  simp only [State.setPort_port_same, State.taken_port, fresh]
  unfold State.taken
  simp only [State.setPort_setPort]
  refine congrArg (u.setPort p) ?_
  simp only [responseOf, Service.fresh, List.nil_append, status, empty]

/-- A port whose one request's first move gives the whole request its outcome: the next move responds. -/
theorem State.taken_settle {r : Request} {st : Status} {ws : List Word} (empty : (s.port p).queue = [])
    (fresh : (s.port p).service = .fresh) (first : (s.taken p r).advance p = (u.taken p r).finishPiece p r.beats st ws)
    (ports : u.ports = s.ports) (rest : s.AtRest) (rest' : u.AtRest) :
    (s.taken p r).settle = u.answered p ⟨st, if isRead r then ws else []⟩ := by
  have port : u.port p = s.port p := congrArg (fun x => x.get p) ports
  have queue : ((s.taken p r).port p).queue = [r] := by rw [State.taken_port]
  have begun : ((s.taken p r).port p).service = .fresh := by rw [State.taken_port]; exact fresh
  have finished : ((u.taken p r).finishPiece p r.beats st ws).port p =
      { u.port p with queue := [r], service := ⟨r.beats, [st], ws, none⟩ } := by
    unfold State.finishPiece State.setService
    rw [State.setPort_port_same, State.taken_port, port, fresh]
    simp only [Service.fresh, Nat.zero_add, List.nil_append]
  have final : (u.answered p ⟨st, if isRead r then ws else []⟩).AtRest := by
    refine .intro (fun q => ?_) (rest'.awaits.setPort p _)
    by_cases e : q = p
    · subst e
      exact State.canAdvance_empty (by rw [State.answered, State.setPort_port_same, port]; exact empty)
    · exact rest'.others _ e
  refine State.Turns.settle (n := 2) (p := p) (r := r) ?_ (by omega) (by rw [queue]; exact List.mem_singleton_self r) final.awaits
  refine .move (State.movable_only (State.canAdvance_ready queue (by rw [begun]; rfl)) fun q e => rest.others _ e) ?_
  rw [first]
  refine .move (State.movable_only (State.canAdvance_ready (r := r) (l := []) (by rw [finished]) (by rw [finished])) fun q e => ?_) ?_
  · unfold State.finishPiece State.setService State.taken
    rw [State.setPort_setPort]
    exact rest'.others _ e
  · rw [State.advance_responds (r := r) (l := []) (by rw [finished]) (by rw [finished]),
      State.finish_respond st ws (port ▸ empty) (port ▸ fresh)]
    exact .still final.routers

/-- A request of one piece that has its outcome at once: the response is the piece's, and the part is as the piece's path leaves it. -/
theorem State.ServesAtOnce.answers {r : Request} {x : Option Spot} {st : Status} {ws : List Word} (h : s.ServesAtOnce p r)
    (piece : s.NextPiece r 0 r.beats x)
    (hand : (s.taken p r).handPiece p r 0 r.beats x = (u.taken p r).finishPiece p r.beats st ws) (ports : u.ports = s.ports)
    (rest : s.AtRest) (rest' : u.AtRest) :
    exec (.requestTaken p r) s = .next (u.answered p ⟨st, if isRead r then ws else []⟩) := by
  have piece' : (s.taken p r).NextPiece r 0 r.beats x := piece.carry rfl
  rw [h.enters, State.taken_settle h.empty h.fresh ?_ ports rest rest']
  rw [piece'.advance (l := []) (by rw [State.taken_port]) (by rw [State.taken_port, h.fresh]; rfl) (pastTop_eq_false h.inside), hand]

/-- A request whose first piece is handed to a path that gives it no outcome yet. -/
theorem State.ServesAtOnce.waits {r : Request} {n : Nat} {x : Option Spot} {w : Wait} (h : s.ServesAtOnce p r)
    (piece : s.NextPiece r 0 n x) (hand : (s.taken p r).handPiece p r 0 n x = (u.taken p r).awaitPiece p n x w)
    (ports : u.ports = s.ports) (rest : s.AtRest) (rest' : u.AtRest) (none : w = .forView → u.viewToOpen p = none) :
    exec (.requestTaken p r) s = .next (u.setPort p
      { s.port p with queue := [r], service := { Service.fresh with piece := some ⟨n, x, w⟩ } }) := by
  have port : u.port p = s.port p := congrArg (fun x => x.get p) ports
  have queue : ((s.taken p r).port p).queue = [r] := by rw [State.taken_port]
  have begun : ((s.taken p r).port p).service = .fresh := by rw [State.taken_port]; exact h.fresh
  have first : (s.taken p r).advance p = u.setPort p
      { s.port p with queue := [r], service := { Service.fresh with piece := some ⟨n, x, w⟩ } } := by
    have piece' : (s.taken p r).NextPiece r 0 n x := piece.carry rfl
    rw [piece'.advance queue (by rw [begun]; rfl) (pastTop_eq_false h.inside), hand]
    unfold State.awaitPiece State.setService
    rw [State.taken_port, port, h.fresh]
    unfold State.taken
    rw [State.setPort_setPort]
  rw [h.enters]
  refine congrArg Host.Outcome.next (State.Turns.settle (n := 1) (p := p) (r := r) ?_ (by omega) (by rw [queue]; exact List.mem_singleton_self r)
    (rest'.awaits.setPort p _))
  refine .move (State.movable_only (State.canAdvance_ready queue (by rw [begun]; rfl)) fun q e => rest.others _ e) ?_
  rw [first]
  refine .still (State.movable_eq_nil.2 fun q => ?_)
  by_cases e : q = p
  · subst e
    exact State.canAdvance_waiting (by rw [State.setPort_port_same]) none
  · exact rest'.others _ e

/-! ### Where a request lies -/

theorem samePiece_at (x : Spot) (m n : Nat) : samePiece (some { x with offset := m }) (some { x with offset := n }) = true := by
  simp [samePiece]

theorem samePiece_of_sameRecord {x y : Spot} : samePiece (some x) (some y) = true ↔ sameRecord x y := by
  simp [samePiece, sameRecord]

theorem State.PlainAll.piece {r : Request} (h : s.PlainAll r) (pos : 0 < r.beats) : s.NextPiece r 0 r.beats none where
  first := h 0 pos
  pos := pos
  fits := by omega
  same j _ lt := by rw [Nat.zero_add, h j lt]; rfl
  cut lt := absurd lt (by omega)

/-- What is left of a request in one record is its next piece. -/
theorem State.RestWithin.piece {r : Request} {k : Nat} {x : Spot} (h : s.RestWithin r k x) (lt : k < r.beats) :
    s.NextPiece r k (r.beats - k) (some x) where
  first := h 0 lt
  pos := by omega
  fits := by omega
  same j _ lt := by rw [h j (by omega)]; exact samePiece_at x _ _
  cut lt := absurd lt (by omega)

theorem State.Within.rest {r : Request} {x : Spot} (h : s.Within r x) : s.RestWithin r 0 x := fun j lt => by
  rw [Nat.zero_add] at lt ⊢
  exact h j lt

theorem State.Within.piece {r : Request} {x : Spot} (h : s.Within r x) (pos : 0 < r.beats) : s.NextPiece r 0 r.beats (some x) :=
  h.rest.piece pos

end

end Sys2Proof.Machine

/-! SUPPORT. Requests that the router answers or passes on by itself (02 R23, R25, R27 to R31). -/

namespace Sys2Proof.Machine

section
variable {s t u : State} {p q : Port}

/-! ### Taking a request (02 R25) -/

theorem exec_requestTaken (p : Port) (r : Request) (s : State) : exec (.requestTaken p r) s = .next (if s.canTake p && r.wellFormed then
    (s.setPort p { s.port p with queue := (s.port p).queue ++ [r] }).settle else s) := rfl

theorem exec_requestTaken_refused (r : Request) (h : s.canTake p = false) : exec (.requestTaken p r) s = .next s := by
  rw [exec_requestTaken, h]
  rfl

/-- A request behind others leaves the part at rest. -/
theorem State.AtRest.queued (rest : s.AtRest) {h : Request} {l : List Request} (queue : (s.port p).queue = h :: l) (m : List Request) :
    (s.setPort p { s.port p with queue := h :: m }).AtRest := by
  refine .intro (fun q => ?_) (rest.awaits.setPort p _)
  by_cases e : q = p
  · subst e
    have still := rest.still q
    have view : (s.setPort q { s.port q with queue := h :: m }).viewToOpen q = s.viewToOpen q := State.viewToOpen_congr rfl
    unfold State.canAdvance at still ⊢
    rw [queue] at still
    rw [State.setPort_port_same, view]
    revert still
    cases (s.port q).service.piece <;> exact id
  · exact rest.others _ e

/-- Settles O9: a request the port does not take changes nothing, one behind others waits, and one past the top is answered FAULT. -/
theorem requestsQueueInOrder : Obligations.RequestsQueueInOrder := by
  refine ⟨fun p r s rest => ⟨fun h => exec_requestTaken_refused r ?_, fun h l hard soft queue room formed => ?_⟩,
    fun p r s rest takes empty fresh formed above => ?_⟩
  · rw [Bool.eq_false_iff]
    intro k
    obtain ⟨hard, soft, room⟩ := (s.canTake_iff p).1 k
    obtain full | line | line := h
    · exact absurd room (Nat.not_lt.2 full)
    · exact Bool.false_ne_true (soft.symm.trans line)
    · exact Bool.false_ne_true (hard.symm.trans line)
  · rw [exec_requestTaken, (s.canTake_iff p).2 ⟨hard, soft, room⟩, formed, queue]
    exact congrArg Host.Outcome.next (rest.queued queue (l ++ [r])).settle
  · have past : pastTop r = true := decide_eq_true above
    have beats : ¬ r.beats ≤ 0 := Nat.not_le.2 (Request.beats_pos formed)
    have first : (s.taken p r).advance p =
        (s.taken p r).finishPiece p r.beats .fault (if isRead r then List.replicate r.beats 0 else []) := by
      unfold State.advance
      rw [State.taken_port, fresh]
      simp only [Service.fresh, if_neg beats, past, if_true]
    have enters : exec (.requestTaken p r) s = .next (s.taken p r).settle := by
      rw [exec_requestTaken, takes, formed, empty]
      rfl
    rw [enters, State.taken_settle empty fresh first rfl rest rest]
    cases r <;> rfl

/-! ### Plain pieces (02 R29, R30) -/

/-- A plain piece becomes a transaction of the same words. -/
theorem State.ServesAtOnce.plain {r : Request} {n : Nat} {x : Option Spot} (h : s.ServesAtOnce p r) (rest : s.AtRest)
    (piece : s.NextPiece r 0 n x) (hand : ∀ t : State, t.regions = s.regions → t.handPiece p r 0 n x = t.plainPiece p r 0 n x) :
    exec (.requestTaken p r) s = .next ((s.setPort p { s.port p with
        queue := [r], service := { Service.fresh with piece := some ⟨n, x, .memory⟩ } }).setPlainRequest p
      (some (if isRead r then .read (beatAddress r 0) n else .write (beatAddress r 0) (requestWords r 0 n)))) :=
  h.waits (u := s.setPlainRequest p (some (if isRead r then .read (beatAddress r 0) n else .write (beatAddress r 0) (requestWords r 0 n))))
    piece (hand _ rfl) rfl rest (rest.carry_pool rfl rfl rfl rfl rfl) nofun

theorem beatAddress_zero (r : Request) : beatAddress r 0 = r.address := BitVec.add_zero _

theorem requestWords_all (a : Word) (ws : List WriteWord) : requestWords (.write a ws) 0 (Request.write a ws).beats = ws := List.take_length ..

theorem State.handPiece_none (s : State) (p : Port) (r : Request) (k n : Nat) : s.handPiece p r k n none = s.plainPiece p r k n none := rfl

/-- A read of a record of which the port is neither writer nor reader is plain (02 R30). -/
theorem State.handPiece_other {r : Request} {x : Spot} (k n : Nat) (read : isRead r = true) (writer : (s.definition x.region).writer ≠ p)
    (reader : (s.definition x.region).readers.get p = false) : s.handPiece p r k n (some x) = s.plainPiece p r k n (some x) := by
  unfold State.handPiece
  simp only [if_neg writer, read, if_true, reader, Bool.false_eq_true, if_false]

theorem State.definition_congr (h : t.regions = s.regions) (r : RegionId) : t.definition r = s.definition r := by
  unfold State.definition State.region
  rw [h]

/-- Settles O10: plain requests and an other port's reads become one transaction, cut where the request leaves its space. -/
theorem plainPiecesBecomeOneTransaction : Obligations.PlainPiecesBecomeOneTransaction := by
  intro p r s rest serves
  have pos := Request.beats_pos serves.formed
  refine ⟨fun plain => ?_, fun x a n e within writer reader => ?_, fun n lo hi plain leaves => ?_, fun x a m n e lo hi here leaves writer reader => ?_⟩
  · rw [serves.plain rest (plain.piece pos) fun t _ => t.handPiece_none p r 0 r.beats, beatAddress_zero]
    cases r with
    | read a n => rfl
    | write a ws =>
      rw [requestWords_all]
      rfl
  · subst e
    rw [serves.plain rest (within.piece pos) fun t same => State.handPiece_other 0 _ rfl ?_ ?_, beatAddress_zero]
    · rfl
    · rw [State.definition_congr same]; exact writer
    · rw [State.definition_congr same]; exact reader
  · have piece : s.NextPiece r 0 n none := by
      refine ⟨plain 0 lo, lo, by omega, fun j _ lt => ?_, fun _ => ?_⟩
      · rw [Nat.zero_add, plain j lt]
        rfl
      · rw [Nat.zero_add]
        cases h : s.spotOf (beatAddress r n) with
        | none => exact absurd h leaves
        | some y => rfl
    rw [serves.plain rest piece fun t _ => t.handPiece_none p r 0 n, beatAddress_zero]
    cases r <;> rfl
  · subst e
    have piece : s.NextPiece (.read a m) 0 n (some x) := by
      refine ⟨here 0 lo, lo, ?_, fun j _ lt => ?_, fun _ => ?_⟩
      · rw [Nat.zero_add]
        exact Nat.le_of_lt hi
      · rw [Nat.zero_add, here j lt]
        exact samePiece_at x _ _
      · rw [Nat.zero_add]
        cases h : s.spotOf (beatAddress (.read a m) n) with
        | none => rfl
        | some y => exact Bool.eq_false_iff.2 fun k => leaves y h (samePiece_of_sameRecord.1 k)
    rw [serves.plain rest piece fun t same => State.handPiece_other 0 _ rfl ?_ ?_, beatAddress_zero]
    · rfl
    · rw [State.definition_congr same]; exact writer
    · rw [State.definition_congr same]; exact reader

/-! ### Foreign writes (02 R31) -/

theorem State.handPiece_foreign {r : Request} {x : Spot} (k n : Nat) (write : isRead r = false) (writer : (s.definition x.region).writer ≠ p) :
    s.handPiece p r k n (some x) = s.foreignWrite p x n := by
  unfold State.handPiece
  simp only [if_neg writer, write, Bool.false_eq_true, if_false]

theorem State.AtRest.post (h : s.AtRest) (body : EventBody) (r : RegionId) (p : Port) (k : Nat) (v : Half) : (s.post body r p k v).AtRest :=
  h.carry_pool rfl rfl rfl rfl rfl

/-- A request of two pieces that each have their outcome at once. -/
theorem State.ServesAtOnce.answers_twice {r : Request} {n : Nat} {x y : Option Spot} {st st' : Status} {ws ws' : List Word}
    {u t : State} (h : s.ServesAtOnce p r) (first : s.NextPiece r 0 n x) (more : n < r.beats) (second : u.NextPiece r n (r.beats - n) y)
    (hand : (s.taken p r).handPiece p r 0 n x = (u.taken p r).finishPiece p n st ws)
    (hand' : ((u.taken p r).finishPiece p n st ws).handPiece p r n (r.beats - n) y =
      (((t.taken p r).finishPiece p n st ws).finishPiece p (r.beats - n) st' ws'))
    (ports : u.ports = s.ports) (ports' : t.ports = s.ports) (rest : s.AtRest) (rest' : u.AtRest) (rest'' : t.AtRest) :
    exec (.requestTaken p r) s = .next (t.answered p ⟨worst [st, st'], if isRead r then ws ++ ws' else []⟩) := by
  have port : u.port p = s.port p := congrArg (fun x => x.get p) ports
  have port' : t.port p = s.port p := congrArg (fun x => x.get p) ports'
  have queue : ((s.taken p r).port p).queue = [r] := by rw [State.taken_port]
  have begun : ((s.taken p r).port p).service = .fresh := by rw [State.taken_port]; exact h.fresh
  have finished : ∀ v : State, v.port p = s.port p →
      (v.taken p r).finishPiece p n st ws = v.setPort p { s.port p with queue := [r], service := ⟨n, [st], ws, none⟩ } := fun v e => by
    unfold State.finishPiece State.setService
    rw [State.taken_port, e, h.fresh]
    unfold State.taken
    rw [State.setPort_setPort]
    simp only [Service.fresh, Nat.zero_add, List.nil_append]
  have both : ((t.taken p r).finishPiece p n st ws).finishPiece p (r.beats - n) st' ws' =
      t.setPort p { s.port p with queue := [r], service := ⟨r.beats, [st, st'], ws ++ ws', none⟩ } := by
    rw [finished t port']
    unfold State.finishPiece State.setService
    rw [State.setPort_port_same, State.setPort_setPort, Nat.add_sub_cancel' (Nat.le_of_lt more)]
    rfl
  have final : (t.answered p ⟨worst [st, st'], if isRead r then ws ++ ws' else []⟩).AtRest := by
    refine .intro (fun q => ?_) (rest''.awaits.setPort p _)
    by_cases e : q = p
    · subst e
      exact State.canAdvance_empty (by rw [State.answered, State.setPort_port_same, port']; exact h.empty)
    · exact rest''.others _ e
  rw [h.enters]
  refine congrArg Host.Outcome.next (State.Turns.settle (n := 3) (p := p) (r := r) ?_ (by omega)
    (by rw [queue]; exact List.mem_singleton_self r) final.awaits)
  refine .move (State.movable_only (State.canAdvance_ready queue (by rw [begun]; rfl)) fun q e => rest.others _ e) ?_
  have first' : (s.taken p r).NextPiece r 0 n x := first.carry rfl
  rw [first'.advance queue (by rw [begun]; rfl) (pastTop_eq_false h.inside), hand]
  have second' : ((u.taken p r).finishPiece p n st ws).NextPiece r n (r.beats - n) y := second.carry rfl
  have ready : ((u.taken p r).finishPiece p n st ws).port p = { s.port p with queue := [r], service := ⟨n, [st], ws, none⟩ } := by
    rw [finished u port, State.setPort_port_same]
  refine .move (State.movable_only (State.canAdvance_ready (r := r) (l := []) (by rw [ready]) (by rw [ready])) fun q e => ?_) ?_
  · rw [finished u port]
    exact rest'.others _ e
  rw [second'.advance (l := []) (by rw [ready]) (by rw [ready]) (pastTop_eq_false h.inside), hand', both]
  have done : (t.setPort p { s.port p with queue := [r], service := ⟨r.beats, [st, st'], ws ++ ws', none⟩ }).port p =
      { s.port p with queue := [r], service := ⟨r.beats, [st, st'], ws ++ ws', none⟩ } := State.setPort_port_same ..
  refine .move (State.movable_only (State.canAdvance_ready (r := r) (l := []) (by rw [done]) (by rw [done])) fun q e => rest''.others _ e) ?_
  rw [State.advance_responds (r := r) (l := []) (by rw [done]) (by rw [done])]
  have responds : (t.setPort p { s.port p with queue := [r], service := ⟨r.beats, [st, st'], ws ++ ws', none⟩ }).respond p r [] =
      t.answered p ⟨worst [st, st'], if isRead r then ws ++ ws' else []⟩ := by
    unfold State.respond State.answered
    rw [done, State.setPort_setPort, port', ← h.empty, ← h.fresh]
    rfl
  rw [responds]
  exact .still final.routers

/-- Settles O11: a foreign write's piece is refused at once, one event for each. -/
theorem foreignWritesAreRefused : Obligations.ForeignWritesAreRefused := by
  refine ⟨fun p a ws x s rest serves within writer => ?_, fun p a ws x y n s rest serves lo hi here there apart writer writer' => ?_⟩
  · exact serves.answers (u := s.post (.writeRefused .foreign) x.region p x.record (s.version x.region x.record))
      (within.piece (Request.beats_pos serves.formed)) (State.handPiece_foreign 0 _ rfl writer) rfl rest (rest.post ..)
  · have first : s.NextPiece (.write a ws) 0 n (some x) := by
      refine ⟨here 0 lo, lo, ?_, fun j _ lt => ?_, fun _ => ?_⟩
      · rw [Nat.zero_add]
        exact Nat.le_of_lt hi
      · rw [Nat.zero_add, here j lt]
        exact samePiece_at x _ _
      · have other : s.spotOf (beatAddress (.write a ws) n) = some y := there 0 hi
        rw [Nat.zero_add, other]
        exact Bool.eq_false_iff.2 fun k => apart (samePiece_of_sameRecord.1 k)
    have second : s.NextPiece (.write a ws) n ((Request.write a ws).beats - n) (some y) := there.piece hi
    exact serves.answers_twice (n := n) (st := .refused) (st' := .refused) (ws := []) (ws' := [])
      (u := s.post (.writeRefused .foreign) x.region p x.record (s.version x.region x.record))
      (t := (s.post (.writeRefused .foreign) x.region p x.record (s.version x.region x.record)).post (.writeRefused .foreign) y.region p
        y.record (s.version y.region y.record))
      first hi (second.carry rfl) (State.handPiece_foreign 0 _ rfl writer) (State.handPiece_foreign n _ rfl writer') rfl rfl rest
      (rest.post ..) ((rest.post ..).post ..)

end

end Sys2Proof.Machine

/-! SUPPORT. Words byte by byte: merging under marks, staging, and the bytes that a list of buffers supplies (03 R47; 02 R33; 05 R89). -/

namespace Sys2Proof.Machine

/-! ### Merging (03 R47) -/

theorem bitsOfMarks_getLsbD (m : Marks) (i : Fin 4) (j : Nat) (h : j < 8) : (bitsOfMarks m).getLsbD (8 * i.val + j) = m.getLsbD i.val := by
  unfold bitsOfMarks
  have all : ∀ b : Bool, (if b then 0xFF#8 else 0#8).getLsbD j = b := fun b => by
    cases b
    · simp
    · interval_cases j <;> rfl
  simp only [BitVec.getLsbD_append]
  match i with
  | 0 =>
    rw [show 8 * (0 : Fin 4).val + j = j from Nat.zero_add j, if_pos h]
    exact all _
  | 1 =>
    rw [show 8 * (1 : Fin 4).val + j = 8 + j from rfl, if_neg (by omega), Nat.add_sub_cancel_left, if_pos h]
    exact all _
  | 2 =>
    rw [show 8 * (2 : Fin 4).val + j = 8 + (8 + j) from Nat.add_assoc 8 8 j, if_neg (by omega), Nat.add_sub_cancel_left,
      if_neg (by omega), Nat.add_sub_cancel_left, if_pos h]
    exact all _
  | 3 =>
    rw [show 8 * (3 : Fin 4).val + j = 8 + (8 + (8 + j)) by show 24 + j = _; omega, if_neg (by omega), Nat.add_sub_cancel_left,
      if_neg (by omega), Nat.add_sub_cancel_left, if_neg (by omega), Nat.add_sub_cancel_left]
    exact all _

/-- A merged word has the new byte where it is marked, and the old one elsewhere. -/
theorem mergeWord_byte (old new : Word) (m : Marks) (i : Fin 4) : (mergeWord old new m).extractLsb' (8 * i.val) 8 =
    (if m.getLsbD i.val then new else old).extractLsb' (8 * i.val) 8 := by
  refine BitVec.eq_of_getLsbD_eq fun j lt => ?_
  have bound : 8 * i.val + j < 32 := by omega
  rw [BitVec.getLsbD_extractLsb', BitVec.getLsbD_extractLsb', decide_eq_true lt, Bool.true_and, Bool.true_and]
  unfold mergeWord
  rw [BitVec.getLsbD_or, BitVec.getLsbD_and, BitVec.getLsbD_and, BitVec.getLsbD_not, bitsOfMarks_getLsbD m i j lt, decide_eq_true bound]
  cases m.getLsbD i.val <;> simp

/-- Words that agree in each of their four bytes are equal. -/
theorem word_ext {a b : Word} (h : ∀ i : Fin 4, a.extractLsb' (8 * i.val) 8 = b.extractLsb' (8 * i.val) 8) : a = b := by
  refine BitVec.eq_of_getLsbD_eq fun k lt => ?_
  have byte := congrArg (fun x => x.getLsbD (k % 8)) (h ⟨k / 8, by omega⟩)
  simp only [BitVec.getLsbD_extractLsb', decide_eq_true (show k % 8 < 8 by omega), Bool.true_and] at byte
  rwa [Nat.div_add_mod] at byte

/-! ### Staging (03 R47) -/

theorem cell_eq_cellD {α : Type} {n : Nat} (v : Vector α n) (i : Fin n) (d : α) : cell v i = cellD v i.val d := (cellD_eq v d i.isLt).symm

theorem stageWord_mask (x : Buffer) (off : Nat) (w : WriteWord) (k : Fin 16) : cell (stageWord x off w).mask k =
    if k.val = off then cell x.mask k ||| w.enables else cell x.mask k := by
  rw [cell_eq_cellD _ k 0, stageWord, cellD_putD]
  by_cases h : k.val = off
  · rw [if_pos ⟨h, h ▸ k.isLt⟩, if_pos h, ← h, ← cell_eq_cellD]
  · rw [if_neg fun e => h e.1, if_neg h, ← cell_eq_cellD]

theorem stageWord_image (x : Buffer) (off : Nat) (w : WriteWord) (k : Fin 16) : cell (stageWord x off w).image k =
    if k.val = off then mergeWord (cell x.image k) w.data w.enables else cell x.image k := by
  rw [cell_eq_cellD _ k 0, stageWord, cellD_putD]
  by_cases h : k.val = off
  · rw [if_pos ⟨h, h ▸ k.isLt⟩, if_pos h, ← h, ← cell_eq_cellD]
  · rw [if_neg fun e => h e.1, if_neg h, ← cell_eq_cellD]

/-- The word that a piece of these words from an offset on has at a place: none has every enable off. -/
def wordAt (off : Nat) (ws : List WriteWord) (k : Nat) : WriteWord := if off ≤ k then ws.getD (k - off) ⟨0, 0⟩ else ⟨0, 0⟩

theorem wordAt_cons (off : Nat) (w : WriteWord) (ws : List WriteWord) (k : Nat) :
    wordAt off (w :: ws) k = if k = off then w else wordAt (off + 1) ws k := by
  unfold wordAt
  obtain lt | rfl | gt := Nat.lt_trichotomy k off
  · rw [if_neg (by omega), if_neg (by omega), if_neg (by omega)]
  · simp
  · rw [if_pos (by omega), if_neg (by omega), if_pos (by omega), show k - off = (k - (off + 1)) + 1 by omega]
    rfl

theorem wordAt_before {off k : Nat} (ws : List WriteWord) (h : k < off) : wordAt off ws k = ⟨0, 0⟩ := if_neg (by omega)

/-- Staging marks the bytes that the piece enables, and gives them the piece's values. -/
theorem stageWords_byte (x : Buffer) (off : Nat) (ws : List WriteWord) (k : Fin 16) (i : Fin 4) :
    (cell (stageWords x off ws).mask k).getLsbD i.val =
      ((cell x.mask k).getLsbD i.val || (wordAt off ws k.val).enables.getLsbD i.val) ∧
    (cell (stageWords x off ws).image k).extractLsb' (8 * i.val) 8 =
      (if (wordAt off ws k.val).enables.getLsbD i.val then (wordAt off ws k.val).data else cell x.image k).extractLsb' (8 * i.val) 8 := by
  induction ws generalizing x off with
  | nil =>
    have none : wordAt off [] k.val = ⟨0, 0⟩ := by unfold wordAt; split <;> rfl
    rw [none]
    simp [stageWords]
  | cons w ws ih =>
    obtain ⟨mask, image⟩ := ih (stageWord x off w) (off + 1)
    rw [stageWords, mask, image, stageWord_mask, stageWord_image, wordAt_cons]
    by_cases h : k.val = off
    · rw [if_pos h, if_pos h, if_pos h, wordAt_before ws (by omega)]
      simp [mergeWord_byte]
    · rw [if_neg h, if_neg h, if_neg h]
      exact ⟨rfl, rfl⟩

/-! ### The bytes that buffers supply (02 R33, 05 R89) -/

/-- One buffer's bytes of a word over those of the buffers before it. -/
def overlayOne (k : Nat) (acc : WriteWord) (x : Buffer) : WriteWord :=
  { data := mergeWord acc.data (cellD x.image k 0) (cellD x.mask k 0), enables := acc.enables ||| cellD x.mask k 0 }

theorem overlay_eq (l : List Buffer) (k : Nat) : overlay l k = l.foldl (overlayOne k) ⟨0, 0⟩ := rfl

/-- Buffers that do not hold a byte leave it as it was. -/
theorem overlay_rest (k : Nat) (i : Fin 4) (l : List Buffer) (acc : WriteWord) (h : ∀ c ∈ l, (cellD c.mask k 0).getLsbD i.val = false) :
    (l.foldl (overlayOne k) acc).enables.getLsbD i.val = acc.enables.getLsbD i.val ∧
    (l.foldl (overlayOne k) acc).data.extractLsb' (8 * i.val) 8 = acc.data.extractLsb' (8 * i.val) 8 := by
  induction l generalizing acc with
  | nil => exact ⟨rfl, rfl⟩
  | cons c l ih =>
    obtain ⟨enables, data⟩ := ih (overlayOne k acc c) fun d m => h d (List.mem_cons_of_mem c m)
    have off := h c List.mem_cons_self
    refine ⟨enables.trans ?_, data.trans ?_⟩
    · rw [overlayOne, BitVec.getLsbD_or, off, Bool.or_false]
    · rw [overlayOne, mergeWord_byte, off]
      rfl

/-- The buffer that holds a byte gives it its value. -/
theorem overlayOne_byte (k : Nat) (i : Fin 4) (acc : WriteWord) {b : Buffer} (h : (cellD b.mask k 0).getLsbD i.val = true) :
    (overlayOne k acc b).enables.getLsbD i.val = true ∧
    (overlayOne k acc b).data.extractLsb' (8 * i.val) 8 = (cellD b.image k 0).extractLsb' (8 * i.val) 8 := by
  refine ⟨?_, ?_⟩
  · rw [overlayOne, BitVec.getLsbD_or, h, Bool.or_true]
  · rw [overlayOne, mergeWord_byte, h]
    rfl

/-- Settles O12: staging byte by byte, by induction on the piece's words; and the last buffer that holds a byte gives it. -/
theorem stagedBytesOverlayTheOlderOnes : Obligations.StagedBytesOverlayTheOlderOnes := by
  refine ⟨stageWords_byte, fun older newer b k i held above => ?_⟩
  have held' : (cellD b.mask k.val 0).getLsbD i.val = true := by rwa [← cell_eq_cellD]
  have above' : ∀ c ∈ newer, (cellD c.mask k.val 0).getLsbD i.val = false := fun c m => by rw [← cell_eq_cellD]; exact above c m
  obtain ⟨enables, data⟩ := overlay_rest k.val i newer (overlayOne k.val (older.foldl (overlayOne k.val) ⟨0, 0⟩) b) above'
  obtain ⟨on, byte⟩ := overlayOne_byte k.val i (older.foldl (overlayOne k.val) ⟨0, 0⟩) held'
  rw [overlay_eq, List.foldl_append, List.foldl_cons]
  refine ⟨enables.trans on, (data.trans byte).trans (by rw [← cell_eq_cellD]), fun l none => ?_⟩
  rw [overlay_eq, (overlay_rest k.val i l ⟨0, 0⟩ fun c m => by rw [← cell_eq_cellD]; exact none c m).1]
  simp

end Sys2Proof.Machine

/-! SUPPORT. Writer pieces (03 R43 to R54): joining, opening and closing an update, and the policies that refuse or write through. -/

namespace Sys2Proof.Machine

section
variable {s t u : State} {p q : Port}

/-! ### The pool's operations do not look at the ports -/

theorem State.foldl_setPort {α : Type} {f : State → α → State} {y : PortState}
    (h : ∀ (s : State) (a : α), f (s.setPort p y) a = (f s a).setPort p y) (l : List α) (s : State) :
    l.foldl f (s.setPort p y) = (l.foldl f s).setPort p y := by
  induction l generalizing s with
  | nil => rfl
  | cons a l ih =>
    rw [List.foldl_cons, h, ih]
    rfl

theorem State.stageIn_setPort (s : State) (p : Port) (y : PortState) (b : BufId) (x : Spot) (ws : List WriteWord) :
    (s.setPort p y).stageIn b x ws = (s.stageIn b x ws).setPort p y := by
  have closes : (s.setPort p y).closes x ws = s.closes x ws := rfl
  unfold State.stageIn
  dsimp only
  rw [closes]
  split <;> rfl

theorem State.openUpdate_setPort (s : State) (p q : Port) (y : PortState) (x : Spot) (ws : List WriteWord) :
    (s.setPort p y).openUpdate q x ws = (s.openUpdate q x ws).setPort p y := by
  have free : (s.setPort p y).freeBuffer = s.freeBuffer := rfl
  unfold State.openUpdate
  rw [free]
  cases s.freeBuffer with
  | none => rfl
  | some b => exact (s.openBuffer q x b).stageIn_setPort p y b x ws

theorem State.makePreTorn_setPort (s : State) (p : Port) (y : PortState) (r : RegionId) (k : Nat) (x : Option BufId) :
    (s.setPort p y).makePreTorn r k x = (s.makePreTorn r k x).setPort p y := by
  unfold State.makePreTorn
  refine State.foldl_setPort (fun s b => ?_) _ s
  have buffer : (s.setPort p y).buffer b = s.buffer b := rfl
  rw [buffer]
  split <;> rfl

theorem State.tearThrough_setPort (s : State) (p q : Port) (y : PortState) (x : Spot) :
    (s.setPort p y).tearThrough q x = (s.tearThrough q x).setPort p y := by
  have marked : (s.setPort p y).setEntry x.region x.record { (s.setPort p y).entry x.region x.record with torn := .torn } =
      (s.setEntry x.region x.record { s.entry x.region x.record with torn := .torn }).setPort p y := rfl
  have version : (s.setPort p y).version x.region x.record = s.version x.region x.record := rfl
  have post : ∀ u : State, (u.setPort p y).post (.recordTorn .writeThrough) x.region q x.record (s.version x.region x.record) =
      (u.post (.recordTorn .writeThrough) x.region q x.record (s.version x.region x.record)).setPort p y := fun _ => rfl
  unfold State.tearThrough
  rw [marked, version, State.makePreTorn_setPort, post]

/-! ### The words of a piece with the version word set aside (03 R46) -/

theorem setAside_getElem? (v : Option Nat) (off : Nat) (ws : List WriteWord) (k : Nat) : (setAside v off ws)[k]? =
    ws[k]?.map fun w => if v = some (off + k) then { w with enables := 0 } else w := by
  induction ws generalizing off k with
  | nil => rfl
  | cons w ws ih =>
    cases k with
    | zero => rfl
    | succ k =>
      rw [setAside, List.getElem?_cons_succ, List.getElem?_cons_succ, ih, Nat.add_assoc, Nat.add_comm 1 k]

theorem setAside_enabled {v : Option Nat} {off : Nat} {ws : List WriteWord} {k : Nat} :
    (∃ w, (setAside v off ws)[k]? = some w ∧ w.enables ≠ 0) ↔ ∃ h : k < ws.length, v ≠ some (off + k) ∧ (ws[k]).enables ≠ 0 := by
  rw [setAside_getElem?]
  by_cases h : k < ws.length
  · rw [List.getElem?_eq_getElem h]
    by_cases version : v = some (off + k)
    · simp [version]
    · simp [version, h]
  · rw [List.getElem?_eq_none (Nat.not_lt.1 h)]
    simp [h]

/-- Some byte of the piece, outside the version word, is enabled. -/
theorem anyEnabled_setAside {v : Option Nat} {off : Nat} {ws : List WriteWord} : anyEnabled (setAside v off ws) = true ↔
    ∃ k, ∃ h : k < ws.length, v ≠ some (off + k) ∧ (ws[k]).enables ≠ 0 := by
  unfold anyEnabled
  simp only [List.any_eq_true, bne_iff_ne, List.mem_iff_getElem?, ← setAside_enabled (v := v) (off := off)]
  exact ⟨fun ⟨w, ⟨k, e⟩, n⟩ => ⟨k, w, e, n⟩, fun ⟨k, w, e, n⟩ => ⟨w, ⟨k, e⟩, n⟩⟩

/-- The piece includes an enabled byte of the close word, and that word is not the version word (03 R49). -/
theorem State.closes_setAside {x : Spot} {ws : List WriteWord} :
    s.closes x (setAside (s.definition x.region).versionWord x.offset ws) = true ↔
      ∃ k, ∃ h : k < ws.length, (s.definition x.region).closeOffset = x.offset + k ∧
        (s.definition x.region).versionWord ≠ some (x.offset + k) ∧ (ws[k]).enables ≠ 0 := by
  unfold State.closes enabledAt
  rw [Bool.and_eq_true, decide_eq_true_eq]
  constructor
  · rintro ⟨le, h⟩
    split at h
    · next w e =>
      obtain ⟨lt, version, on⟩ := setAside_enabled.1 ⟨w, e, by simpa using h⟩
      exact ⟨_, lt, by omega, version, on⟩
    · cases h
  · rintro ⟨k, lt, close, on⟩
    obtain ⟨w, e, n⟩ := setAside_enabled.2 ⟨lt, on⟩
    rw [close, Nat.add_sub_cancel_left, e]
    exact ⟨Nat.le_add_right .., by simpa using n⟩

/-! ### A writer's request (03 R46 to R49) -/

theorem State.handPiece_writer {r : Request} {x : Spot} (k n : Nat) (write : isRead r = false) (writer : (s.definition x.region).writer = p) :
    s.handPiece p r k n (some x) = s.stagePiece p x (beatAddress r k) (requestWords r k n) := by
  unfold State.handPiece
  simp only [if_pos writer, write, Bool.false_eq_true, if_false]

/-- What the update controller makes of a writer's request that lies in one record. -/
theorem State.ServesAtOnce.stages {a : Word} {ws : List WriteWord} {x : Spot} (writer : (s.definition x.region).writer = p) :
    (s.taken p (.write a ws)).handPiece p (.write a ws) 0 (Request.write a ws).beats (some x) =
      (s.taken p (.write a ws)).stagePiece p x a ws := by
  have writer' : ((s.taken p (.write a ws)).definition x.region).writer = p := writer
  rw [State.handPiece_writer 0 _ rfl writer', beatAddress_zero, requestWords_all]
  rfl

theorem State.examineIf_none (b : Bool) (h : s.pool.holds = []) : s.examineIf b = s := by
  unfold State.examineIf
  split
  · exact s.examineHolds_none h
  · rfl

/-- Staging in a buffer frees none. -/
theorem State.setBuffer_busy {b : BufId} {x : Buffer} (used : x.state ≠ .free) (region : (s.buffer b).state ≠ .free → x.region = (s.buffer b).region)
    (c : BufId) (n : (s.buffer c).state ≠ .free) :
    ((s.setBuffer b x).buffer c).state ≠ .free ∧ ((s.setBuffer b x).buffer c).region = (s.buffer c).region := by
  rw [State.setBuffer_buffer]
  split
  · next e =>
    subst e
    exact ⟨used, region n⟩
  · exact ⟨n, rfl⟩

theorem stageWords_state (x : Buffer) (off : Nat) (ws : List WriteWord) : (stageWords x off ws).state = x.state := (stageWords_fields x off ws).1

theorem stageWords_region (x : Buffer) (off : Nat) (ws : List WriteWord) : (stageWords x off ws).region = x.region := (stageWords_fields x off ws).2.1

theorem stageWords_record (x : Buffer) (off : Nat) (ws : List WriteWord) : (stageWords x off ws).record = x.record := (stageWords_fields x off ws).2.2.1

theorem stageWords_writer (x : Buffer) (off : Nat) (ws : List WriteWord) : (stageWords x off ws).writer = x.writer := (stageWords_fields x off ws).2.2.2.1

theorem State.stageIn_open {b : BufId} {x : Spot} {ws : List WriteWord} (h : s.closes x ws = false) :
    s.stageIn b x ws = s.setBuffer b (stageWords (s.buffer b) x.offset ws) := by
  unfold State.stageIn
  dsimp only
  rw [h]
  rfl

theorem State.stageIn_close {b : BufId} {x : Spot} {ws : List WriteWord} (h : s.closes x ws = true) :
    s.stageIn b x ws = (s.setBuffer b (stageWords (s.buffer b) x.offset ws)).closeBuffer b := by
  unfold State.stageIn
  dsimp only
  rw [h]
  rfl

/-- A piece with nothing to stage is answered at once (03 R46). -/
theorem State.stagePiece_idle {x : Spot} {a : Word} {ws : List WriteWord}
    (h : anyEnabled (setAside (s.definition x.region).versionWord x.offset ws) = false) :
    s.stagePiece p x a ws = s.finishPiece p ws.length .okay [] := by
  unfold State.stagePiece
  dsimp only
  rw [h, setAside_length]
  rfl

/-- A piece joins the record's GATHERING buffer. -/
theorem State.stagePiece_joins {x : Spot} {a : Word} {ws l : List WriteWord} {b : BufId}
    (staged : setAside (s.definition x.region).versionWord x.offset ws = l) (some' : anyEnabled l = true)
    (h : s.gatheringOf x.region x.record = some b) :
    s.stagePiece p x a ws = ((s.stageIn b x l).finishPiece p ws.length .okay []).examineIf (s.closes x l) := by
  have length : l.length = ws.length := by rw [← staged, setAside_length]
  unfold State.stagePiece
  simp only [staged, some', h, length]
  rfl

/-- A piece of a record with no GATHERING buffer opens one, if both limits permit. -/
theorem State.stagePiece_opens {x : Spot} {a : Word} {ws l : List WriteWord}
    (staged : setAside (s.definition x.region).versionWord x.offset ws = l) (some' : anyEnabled l = true)
    (h : s.gatheringOf x.region x.record = none) (can : s.canOpen p = true) :
    s.stagePiece p x a ws = ((s.openUpdate p x l).finishPiece p ws.length .okay []).examineIf (s.closes x l) := by
  have length : l.length = ws.length := by rw [← staged, setAside_length]
  unfold State.stagePiece
  simp only [staged, some', h, length, can, Bool.not_true, Bool.false_eq_true, if_false, if_true]

/-- Else the exhaustion policy applies. -/
theorem State.stagePiece_exhausted {x : Spot} {a : Word} {ws l : List WriteWord}
    (staged : setAside (s.definition x.region).versionWord x.offset ws = l) (some' : anyEnabled l = true)
    (h : s.gatheringOf x.region x.record = none) (can : s.canOpen p = false) : s.stagePiece p x a ws = s.exhausted p x a l := by
  unfold State.stagePiece
  simp only [staged, some', h, can, Bool.not_true, Bool.false_eq_true, if_false]

theorem State.openUpdate_eq {x : Spot} {ws : List WriteWord} {b : BufId} (h : s.freeBuffer = some b) :
    s.openUpdate p x ws = (s.openBuffer p x b).stageIn b x ws := by
  unfold State.openUpdate
  rw [h]

/-- The first of all numbers, in ascending order, that meets a condition. -/
theorem find?_least {n : Nat} {l : List (Fin n)} {f : Fin n → Bool} {b : Fin n} (sorted : l.Pairwise (· < ·)) (all : ∀ c, c ∈ l) :
    l.find? f = some b ↔ f b = true ∧ ∀ c, c < b → f c = false := by
  rw [List.find?_eq_some_iff_append]
  constructor
  · rintro ⟨found, before, after, e, none⟩
    refine ⟨found, fun c lt => ?_⟩
    rw [e, List.pairwise_append, List.pairwise_cons] at sorted
    have mem : c ∈ before ++ b :: after := e ▸ all c
    obtain m | m := List.mem_append.1 mem
    · simpa using none c m
    · obtain rfl | m := List.mem_cons.1 m
      · exact absurd lt (lt_irrefl c)
      · exact absurd (sorted.2.1.1 c m) (lt_asymm lt)
  · rintro ⟨found, none⟩
    obtain ⟨before, after, e⟩ := List.append_of_mem (all b)
    refine ⟨found, before, after, e, fun c m => ?_⟩
    rw [e, List.pairwise_append] at sorted
    rw [none c (sorted.2.2 c m b List.mem_cons_self)]
    rfl

/-- The FREE buffer of lowest number. -/
theorem State.freeBuffer_iff {b : BufId} : s.freeBuffer = some b ↔ (s.buffer b).state = .free ∧ ∀ c, c < b → (s.buffer c).state ≠ .free := by
  unfold State.freeBuffer
  rw [find?_least (by decide) mem_allBuffers]
  simp only [decide_eq_true_eq, decide_eq_false_iff_not, ne_eq]

end

end Sys2Proof.Machine

/-! SUPPORT. Joining, opening and closing an update, and the policies that refuse or write through (03 R43 to R54). -/

namespace Sys2Proof.Machine

section
variable {s t u : State} {p q : Port}

/-! ### Joining and opening (03 R43, R46, R47, R48) -/

theorem State.gatheringOf_taken (p : Port) (r : Request) (k : RegionId) (n : Nat) : (s.taken p r).gatheringOf k n = s.gatheringOf k n := rfl

/-- The closing of an update examines the held writes, of which there are none. -/
theorem State.finish_examined (u : State) (p : Port) (n : Nat) (st : Status) (ws : List Word) (b : Bool) (holds : u.pool.holds = [] ∨ b = false) :
    (u.finishPiece p n st ws).examineIf b = u.finishPiece p n st ws := by
  obtain h | rfl := holds
  · exact State.examineIf_none b h
  · rfl

theorem State.stageIn_busy {b : BufId} {x : Spot} {ws : List WriteWord} (used : (s.buffer b).state ≠ .free) (c : BufId)
    (n : (s.buffer c).state ≠ .free) :
    ((s.stageIn b x ws).buffer c).state ≠ .free ∧ ((s.stageIn b x ws).buffer c).region = (s.buffer c).region := by
  have staged := s.setBuffer_busy (b := b) (x := stageWords (s.buffer b) x.offset ws) (by rw [stageWords_state]; exact used)
    (fun _ => stageWords_region ..) c n
  cases h : s.closes x ws with
  | false => rw [State.stageIn_open h]; exact staged
  | true =>
    rw [State.stageIn_close h, State.closeBuffer_buffer]
    split
    · next e =>
      subst e
      refine ⟨nofun, ?_⟩
      rw [State.setBuffer_buffer_same]
      exact stageWords_region ..
    · exact staged

theorem State.openBuffer_busy {b : BufId} (free : (s.buffer b).state = .free) (x : Spot) (c : BufId) (n : (s.buffer c).state ≠ .free) :
    ((s.openBuffer p x b).buffer c).state ≠ .free ∧ ((s.openBuffer p x b).buffer c).region = (s.buffer c).region := by
  rw [State.openBuffer_buffer, if_neg fun e : c = b => n (e ▸ free)]
  exact ⟨n, rfl⟩

/-- Staging keeps the part at rest. -/
theorem State.AtRest.stageIn (rest : s.AtRest) {b : BufId} (used : (s.buffer b).state ≠ .free) (x : Spot) (ws : List WriteWord) :
    (s.stageIn b x ws).AtRest :=
  have w := s.stageIn_writes b x ws
  rest.carry w.ports w.views w.link w.regions (State.stageIn_busy used)

theorem State.AtRest.openBuffer (rest : s.AtRest) {b : BufId} (free : (s.buffer b).state = .free) (p : Port) (x : Spot) :
    (s.openBuffer p x b).AtRest :=
  have w := s.openBuffer_writes p x b
  rest.carry w.ports w.views w.link w.regions (State.openBuffer_busy free x)

/-- A piece that joins its record's GATHERING buffer, and closes it only with no held write to examine. -/
theorem State.ServesAtOnce.joins {a : Word} {ws l : List WriteWord} {x : Spot} {b : BufId} (h : s.ServesAtOnce p (.write a ws)) (rest : s.AtRest)
    (within : s.Within (.write a ws) x) (writer : (s.definition x.region).writer = p)
    (staged : setAside (s.definition x.region).versionWord x.offset ws = l) (some' : anyEnabled l = true)
    (gathering : s.gatheringOf x.region x.record = some b) (holds : (s.stageIn b x l).pool.holds = [] ∨ s.closes x l = false) :
    exec (.requestTaken p (.write a ws)) s = .next ((s.stageIn b x l).answered p ⟨.okay, []⟩) := by
  have state := (s.gatheringOf_eq_some gathering).1
  refine h.answers (ws := []) (within.piece (Request.beats_pos h.formed)) ?_ (s.stageIn_writes b x l).ports rest
    (rest.stageIn (by rw [state]; nofun) x l)
  rw [State.ServesAtOnce.stages writer]
  have staged' : setAside ((s.taken p (.write a ws)).definition x.region).versionWord x.offset ws = l := staged
  have gathering' : (s.taken p (.write a ws)).gatheringOf x.region x.record = some b := gathering
  have closes : (s.taken p (.write a ws)).closes x l = s.closes x l := rfl
  have taken : (s.taken p (.write a ws)).stageIn b x l = (s.stageIn b x l).taken p (.write a ws) := by
    have port : (s.stageIn b x l).port p = s.port p := congrArg (fun x => x.get p) (s.stageIn_writes b x l).ports
    unfold State.taken
    rw [State.stageIn_setPort, port]
  rw [State.stagePiece_joins staged' some' gathering', closes, taken]
  exact State.finish_examined _ _ _ _ _ _ holds

/-- A piece that opens its record's update, and closes it only with no held write to examine. -/
theorem State.ServesAtOnce.opens {a : Word} {ws l : List WriteWord} {x : Spot} {b : BufId} (h : s.ServesAtOnce p (.write a ws)) (rest : s.AtRest)
    (within : s.Within (.write a ws) x) (writer : (s.definition x.region).writer = p)
    (staged : setAside (s.definition x.region).versionWord x.offset ws = l) (some' : anyEnabled l = true)
    (gathering : s.gatheringOf x.region x.record = none) (free : s.freeBuffer = some b) (room : (s.pool.gathering.get p).length < 4)
    (holds : s.pool.holds = [] ∨ s.closes x l = false) :
    exec (.requestTaken p (.write a ws)) s = .next (((s.openBuffer p x b).stageIn b x l).answered p ⟨.okay, []⟩) := by
  have state := s.freeBuffer_eq_some free
  have opened : ((s.openBuffer p x b).buffer b).state ≠ .free := by
    rw [State.openBuffer_buffer, if_pos rfl]
    nofun
  have open' : s.openUpdate p x l = (s.openBuffer p x b).stageIn b x l := State.openUpdate_eq free
  refine h.answers (ws := []) (within.piece (Request.beats_pos h.formed)) ?_
    (((s.openBuffer p x b).stageIn_writes b x l).ports.trans (s.openBuffer_writes p x b).ports) rest
    ((rest.openBuffer state p x).stageIn opened x l)
  rw [State.ServesAtOnce.stages writer, ← open']
  have staged' : setAside ((s.taken p (.write a ws)).definition x.region).versionWord x.offset ws = l := staged
  have gathering' : (s.taken p (.write a ws)).gatheringOf x.region x.record = none := gathering
  have can : (s.taken p (.write a ws)).canOpen p = true :=
    (s.canOpen_iff p).2 ⟨⟨b, state⟩, room⟩
  have closes : (s.taken p (.write a ws)).closes x l = s.closes x l := rfl
  have taken : (s.taken p (.write a ws)).openUpdate p x l = (s.openUpdate p x l).taken p (.write a ws) := by
    have port : (s.openUpdate p x l).port p = s.port p := congrArg (fun x => x.get p) (s.openUpdate_writes p x l).ports
    unfold State.taken
    rw [State.openUpdate_setPort, port]
  rw [State.stagePiece_opens staged' some' gathering' can, closes, taken]
  refine State.finish_examined _ _ _ _ _ _ (holds.imp (fun e => ?_) id)
  exact (s.openUpdate_holds p x l).trans e

/-- Settles O13: a piece that does not reach the close word joins or opens, and the version word is never staged. -/
theorem writerPiecesJoinOrOpenAnUpdate : Obligations.WriterPiecesJoinOrOpenAnUpdate := by
  refine ⟨fun p a ws x s rest serves within writer on before => ?_, fun p a ws x s rest serves within writer off => ?_⟩
  · intro staged
    have some' : anyEnabled staged = true := anyEnabled_setAside.2 on
    have open' : s.closes x staged = false := by
      rw [Bool.eq_false_iff]
      intro k
      obtain ⟨k, lt, close, version, enables⟩ := State.closes_setAside.1 k
      exact (before k lt close).elim version enables
    refine ⟨fun b gathering => ?_, fun b gathering free room => ?_⟩
    · rw [serves.joins rest within writer rfl some' gathering (.inr open'), State.stageIn_open open']
    · have opened := serves.opens rest within writer rfl some' gathering free room (.inr open')
      have open'' : (s.openBuffer p x b).closes x staged = false := open'
      rw [State.stageIn_open open''] at opened
      have first : (s.openBuffer p x b).buffer b = s.opened p x := (State.openBuffer_buffer ..).trans (if_pos rfl)
      refine ⟨_, opened, rfl, ?_, fun c ne => ?_, (State.freeBuffer_iff.1 free).2, rfl, rfl, rfl⟩
      · refine (State.setBuffer_buffer_same ..).trans ?_
        rw [first]
        rfl
      · refine (State.setBuffer_buffer ..).trans ?_
        rw [if_neg ne, State.openBuffer_buffer, if_neg ne]
  · have none : anyEnabled (setAside (s.definition x.region).versionWord x.offset ws) = false := by
      rw [Bool.eq_false_iff]
      intro k
      obtain ⟨k, lt, version, enables⟩ := anyEnabled_setAside.1 k
      exact (off k lt).elim version enables
    refine serves.answers (ws := []) (within.piece (Request.beats_pos serves.formed)) ?_ rfl rest rest
    rw [State.ServesAtOnce.stages writer]
    exact State.stagePiece_idle none

/-! ### Closing (03 R49, R50) -/

theorem State.inFlight_eq (s : State) (r : RegionId) (k : Nat) : s.inFlight r k = (s.captures.filter fun c => c.ofRecord r k).length := by
  unfold State.inFlight
  congr 1
  refine List.filter_congr fun c _ => ?_
  rw [Bool.eq_iff_iff, decide_eq_true_iff, Capture.ofRecord, Bool.and_eq_true, beq_iff_eq, beq_iff_eq]

theorem State.capturesHolding_eq (s : State) (r : RegionId) (k : Nat) (b : BufId) : s.capturesHolding r k b =
    s.captures.map fun c => if c.ofRecord r k then { c with holdSet := c.holdSet ++ [b] } else c := by
  unfold State.capturesHolding
  refine List.map_congr_left fun c _ => ?_
  have iff : (c.region = r ∧ c.record = k) ↔ c.ofRecord r k = true := by
    rw [Capture.ofRecord, Bool.and_eq_true, beq_iff_eq, beq_iff_eq]
  by_cases h : c.region = r ∧ c.record = k
  · rw [if_pos h, if_pos (iff.1 h)]
  · rw [if_neg h, if_neg fun k => h (iff.2 k)]

/-- Closing a buffer of a record. -/
theorem State.closeBuffer_eq {b : BufId} {r : RegionId} {k : Nat} (region : (s.buffer b).region = r) (record : (s.buffer b).record = k) :
    s.closeBuffer b = (s.setPool { s.pool with
        buffers := put s.pool.buffers b { s.buffer b with state := .closed, waitCount := s.inFlight r k }
        gathering := s.pool.gathering.set (s.buffer b).writer ((s.pool.gathering.get (s.buffer b).writer).erase b)
        closeOrder := s.pool.closeOrder ++ [b] }).setCaptures (s.capturesHolding r k b) := by
  rw [State.inFlight_eq, State.capturesHolding_eq, ← region, ← record]
  rfl

@[simp] theorem put_put {α : Type} {n : Nat} (v : Vector α n) (i : Fin n) (x y : α) : put (put v i x) i y = put v i y := by
  simp [put]

theorem closes_anyEnabled {x : Spot} {ws : List WriteWord}
    (h : ∃ k, ∃ h : k < ws.length, (s.definition x.region).closeOffset = x.offset + k ∧
      (s.definition x.region).versionWord ≠ some (x.offset + k) ∧ (ws[k]).enables ≠ 0) :
    anyEnabled (setAside (s.definition x.region).versionWord x.offset ws) = true := by
  obtain ⟨k, lt, -, on⟩ := h
  exact anyEnabled_setAside.2 ⟨k, lt, on⟩

/-- An update that one piece opens and closes: the gathering lists end as they stood. -/
theorem State.openBuffer_close {b : BufId} (pool : s.PoolLawful) (free : (s.buffer b).state = .free) {x : Spot} {ws : List WriteWord}
    (h : s.closes x ws = true) : (s.openBuffer p x b).stageIn b x ws = (s.setPool { s.pool with
          buffers := put s.pool.buffers b
            { stageWords (s.opened p x) x.offset ws with
              state := .closed
              waitCount := s.inFlight x.region x.record }
          closeOrder := s.pool.closeOrder ++ [b] }).setCaptures (s.capturesHolding x.region x.record b) := by
  have h' : (s.openBuffer p x b).closes x ws = true := h
  have opened : (s.openBuffer p x b).buffer b = s.opened p x := (State.openBuffer_buffer ..).trans (if_pos rfl)
  have staged : ((s.openBuffer p x b).setBuffer b (stageWords (s.opened p x) x.offset ws)).buffer b = stageWords (s.opened p x) x.offset ws :=
    State.setBuffer_buffer_same ..
  have out : b ∉ s.pool.gathering.get p := fun m => by
    have := ((pool.gathering_iff p b).1 m).1
    rw [free] at this
    cases this
  have lists : ((s.pool.gathering.set p (s.pool.gathering.get p ++ [b])).set p (((s.pool.gathering.set p (s.pool.gathering.get p ++ [b])).get p).erase b)) =
      s.pool.gathering := by
    rw [PerPort.set_set, PerPort.get_set_same, List.erase_append_right _ out, List.erase_cons_head, List.append_nil, PerPort.set_get_same]
  rw [State.stageIn_close h', opened, State.closeBuffer_eq (r := x.region) (k := x.record)
    (by rw [staged, stageWords_region]; rfl) (by rw [staged, stageWords_record]; rfl), staged, stageWords_writer]
  unfold State.openBuffer State.setBuffer
  simp only [State.setPool_pool, put_put]
  have writer : (s.opened p x).writer = p := rfl
  rw [writer, lists]
  rfl

/-- Settles O14: a piece that includes the close word stages, then closes. -/
theorem theCloseWordClosesTheUpdate : Obligations.TheCloseWordClosesTheUpdate := by
  refine ⟨fun p a ws x b s rest pool holds serves within writer gathering owner close => ?_,
    fun p a ws x b s rest pool holds serves within writer gathering free lowest room close => ?_⟩
  · have closes := State.closes_setAside.2 close
    obtain ⟨state, region, record⟩ := s.gatheringOf_eq_some gathering
    have row := serves.joins rest within writer rfl (closes_anyEnabled close) gathering (.inl ((State.stageIn_holds ..).trans holds))
    generalize setAside (s.definition x.region).versionWord x.offset ws = l at row closes
    rw [State.stageIn_close closes] at row
    have staged : (s.setBuffer b (stageWords (s.buffer b) x.offset l)).buffer b = stageWords (s.buffer b) x.offset l :=
      State.setBuffer_buffer_same ..
    refine ⟨_, row, rfl, ?_, fun c ne => ?_, ?_, rfl, holds, ?_⟩
    · refine (State.closeBuffer_buffer_same ..).trans ?_
      rw [staged, stageWords_region, stageWords_record, region, record]
      rfl
    · exact (State.closeBuffer_buffer_other _ _ _ ne).trans ((State.setBuffer_buffer ..).trans (if_neg ne))
    · refine (State.closeBuffer_gathering ..).trans ?_
      rw [staged, stageWords_writer, owner]
      rfl
    · refine (State.closeBuffer_captures ..).trans ?_
      rw [staged, stageWords_region, stageWords_record, region, record]
      rfl
  · have closes := State.closes_setAside.2 close
    rw [serves.opens rest within writer rfl (closes_anyEnabled close) gathering (State.freeBuffer_iff.2 ⟨free, lowest⟩) room (.inl holds),
      State.openBuffer_close pool free closes]

/-! ### The exhaustion policies (03 R52, R53, R54) -/

theorem State.canOpen_eq_false (h : (∀ b, (s.buffer b).state ≠ .free) ∨ 4 ≤ (s.pool.gathering.get p).length) : s.canOpen p = false := by
  rw [Bool.eq_false_iff]
  intro k
  obtain ⟨⟨b, free⟩, room⟩ := (s.canOpen_iff p).1 k
  exact h.elim (fun n => n b free) fun le => absurd room (Nat.not_lt.2 le)

theorem State.freeBuffer_isNone : s.freeBuffer.isNone = true ↔ ∀ b, (s.buffer b).state ≠ .free := by
  rw [← Option.not_isSome, Bool.not_eq_true', Bool.eq_false_iff, Ne, s.freeBuffer_isSome, not_exists]

/-- The event of an exhaustion names the limit that stood in the way. -/
theorem State.postExhausted_eq (s : State) (p : Port) (x : Spot) : s.postExhausted p x =
    s.post (.stagingExhausted (if ∀ b, (s.buffer b).state ≠ .free then .pool else .port) (s.definition x.region).policy) x.region p x.record
      (s.version x.region x.record) := by
  have limit : (if s.freeBuffer.isNone = true then Limit.pool else .port) = if ∀ b, (s.buffer b).state ≠ .free then .pool else .port :=
    if_congr State.freeBuffer_isNone rfl rfl
  rw [← limit]
  rfl

/-- Marking pre-torn marks the record's buffers but one, and no other (03 R53, 04 R77). -/
theorem State.makePreTorn_buffers (s : State) (r : RegionId) (k : Nat) (x : Option BufId) (b : BufId) :
    (s.makePreTorn r k x).buffer b =
      if ((s.buffer b).ofRecord r k && x != some b) = true then { s.buffer b with preTorn := true } else s.buffer b := by
  have fold : ∀ (l : List BufId) (s : State), l.Nodup →
      (l.foldl (fun s b => if (s.buffer b).ofRecord r k && x != some b then
        s.setBuffer b { s.buffer b with preTorn := true } else s) s).buffer b =
      if b ∈ l ∧ ((s.buffer b).ofRecord r k && x != some b) = true then { s.buffer b with preTorn := true } else s.buffer b := by
    intro l
    induction l with
    | nil => exact fun s _ => (if_neg fun e => nomatch e.1).symm
    | cons c l ih =>
      intro s nodup
      obtain ⟨out, nodup⟩ := List.nodup_cons.1 nodup
      rw [List.foldl_cons, ih _ nodup]
      by_cases e : b = c
      · subst e
        by_cases h : ((s.buffer b).ofRecord r k && x != some b) = true
        · rw [if_pos h, if_neg fun m => out m.1, if_pos ⟨List.mem_cons_self, h⟩, State.setBuffer_buffer_same]
        · rw [if_neg h, if_neg fun m => out m.1, if_neg fun m => h m.2]
      · by_cases h : ((s.buffer c).ofRecord r k && x != some c) = true
        · rw [if_pos h, State.setBuffer_buffer, if_neg e]
          simp [e]
        · rw [if_neg h]
          simp [e]
  unfold State.makePreTorn
  rw [fold allBuffers s (by decide)]
  simp [mem_allBuffers]

theorem State.makePreTorn_buffer (s : State) (r : RegionId) (k : Nat) (b : BufId) : (s.makePreTorn r k none).buffer b =
    if (s.buffer b).ofRecord r k then { s.buffer b with preTorn := true } else s.buffer b := by
  rw [s.makePreTorn_buffers]
  simp

/-- The record's entry as a write-through marks it: its version as it stands (03 R53). -/
def State.tornEntry (s : State) (x : Spot) : State :=
  s.setEntry x.region x.record { s.entry x.region x.record with torn := .torn }

theorem State.tearThrough_eq (s : State) (p : Port) (x : Spot) : s.tearThrough p x =
    ((s.tornEntry x).makePreTorn x.region x.record none).post (.recordTorn .writeThrough) x.region p x.record
      (s.version x.region x.record) := by
  unfold State.tearThrough State.tornEntry
  rfl

theorem State.tearThrough_versions (s : State) (p : Port) (x : Spot) : (s.tearThrough p x).versions =
    putD s.versions ((s.definition x.region).versionBase + x.record) { s.entry x.region x.record with torn := .torn } := by
  rw [State.tearThrough_eq, State.post_versions, (State.makePreTorn_writes (s.tornEntry x) x.region x.record none).versions]
  rfl

theorem State.tearThrough_buffer (s : State) (p : Port) (x : Spot) (b : BufId) : (s.tearThrough p x).buffer b =
    if (s.buffer b).ofRecord x.region x.record then { s.buffer b with preTorn := true } else s.buffer b := by
  have torn := (s.tornEntry x).makePreTorn_buffer x.region x.record b
  rw [State.tearThrough_eq, State.buffer, State.post_pool]
  exact torn

theorem State.tearThrough_events (s : State) (p : Port) (x : Spot) : (s.tearThrough p x).events =
    s.events.post s.timebase (.recordTorn .writeThrough) x.region p x.record (s.version x.region x.record) := by
  have w := State.makePreTorn_writes (s.tornEntry x) x.region x.record none
  rw [State.tearThrough_eq, State.post_eq, State.setEvents_events, w.events, w.timebase]
  rfl

/-- Settles O15: with a limit in the way, REFUSE answers at once and THROUGH tears the record and writes to memory. -/
theorem exhaustionRefusesOrWritesThrough : Obligations.ExhaustionRefusesOrWritesThrough := by
  intro p a ws x s rest serves within writer on gathering full policy limit u
  have cannot : (s.taken p (.write a ws)).canOpen p = false := State.canOpen_eq_false full
  have posted : s.postExhausted p x = u := s.postExhausted_eq p x
  have rest' : u.AtRest := rest.post ..
  have piece := within.piece (Request.beats_pos serves.formed)
  have some' := anyEnabled_setAside.2 on
  have length : (setAside (s.definition x.region).versionWord x.offset ws).length = (Request.write a ws).beats := setAside_length ..
  have hand : (s.taken p (.write a ws)).handPiece p (.write a ws) 0 (Request.write a ws).beats (some x) =
      (s.taken p (.write a ws)).exhausted p x a (setAside (s.definition x.region).versionWord x.offset ws) := by
    rw [State.ServesAtOnce.stages writer]
    exact State.stagePiece_exhausted rfl some' gathering cannot
  have taken : (s.taken p (.write a ws)).postExhausted p x = u.taken p (.write a ws) := by
    rw [← posted]
    rfl
  rw [State.exhausted_eq, taken] at hand
  generalize setAside (s.definition x.region).versionWord x.offset ws = l at *
  refine ⟨fun refuse => ?_, fun through => ?_⟩
  · have refuse' : ((s.taken p (.write a ws)).definition x.region).policy = .refuse := refuse
    refine serves.answers (ws := []) piece (hand.trans ?_) rfl rest rest'
    simp only [refuse', length]
  · have through' : ((s.taken p (.write a ws)).definition x.region).policy = .through := through
    have w := u.tearThrough_writes p x
    have k := u.tearThrough_keepsUpdates p x
    have versions := u.tearThrough_versions p x
    have buffer := u.tearThrough_buffer p x
    have events := u.tearThrough_events p x
    have port : (u.tearThrough p x).port p = u.port p := congrArg (fun x => x.get p) w.ports
    have torn : (u.taken p (.write a ws)).tearThrough p x = (u.tearThrough p x).taken p (.write a ws) := by
      unfold State.taken
      rw [State.tearThrough_setPort, port]
    have rest'' : (u.tearThrough p x).AtRest := rest'.carry w.ports w.views w.link w.regions fun b n => by
      rw [k.state, k.region]
      exact ⟨n, rfl⟩
    simp only [through', torn, length] at hand
    generalize u.tearThrough p x = v at *
    have row := serves.waits (n := (Request.write a ws).beats) (w := .memory) (u := v.setPlainRequest p (some (.write a l))) piece hand
      w.ports rest (rest''.carry_pool rfl rfl rfl rfl rfl) nofun
    refine ⟨_, row, versions, buffer, events, PerPort.get_set_same .., ?_, w.views, w.captures, k.gathering, k.closeOrder, w.regions⟩
    rw [State.setPort_port_same]

end

end Sys2Proof.Machine

/-! SUPPORT. Runs of numbers, and read-own's snapshot (02 R33, R34). -/

namespace Sys2Proof.Machine

/-! ### Runs -/

theorem mem_run {k n i : Nat} : i ∈ run k n ↔ k ≤ i ∧ i < k + n := by simp [run]

theorem run_length (k n : Nat) : (run k n).length = n := List.length_range'

theorem run_getElem? {k n i : Nat} (h : i < n) : (run k n)[i]? = some (k + i) := by
  rw [run, List.getElem?_range' h, Nat.one_mul]

theorem run_sorted (k n : Nat) : (run k n).Pairwise (· < ·) := List.pairwise_lt_range'

theorem run_eq_map (k n : Nat) : run k n = (run 0 n).map (k + ·) := by
  refine List.ext_getElem? fun i => ?_
  by_cases h : i < n
  · rw [List.getElem?_map, run_getElem? h, run_getElem? h, Nat.zero_add]
    rfl
  · rw [List.getElem?_map, List.getElem?_eq_none (by rw [run_length]; omega), List.getElem?_eq_none (by rw [run_length]; omega)]
    rfl

/-- A list in ascending order begins with its least member and ends with its greatest. -/
theorem sorted_ends {l : List Nat} (sorted : l.Pairwise (· < ·)) {lo hi : Nat} (least : lo ∈ l) (greatest : hi ∈ l)
    (between : ∀ k ∈ l, lo ≤ k ∧ k ≤ hi) : ∃ more, l = lo :: more ∧ more.getLastD lo = hi := by
  cases l with
  | nil => cases least
  | cons first more =>
    have start : first = lo := by
      obtain h | h := List.mem_cons.1 least
      · exact h.symm
      · exact Nat.le_antisymm (Nat.le_of_lt (List.rel_of_pairwise_cons sorted h)) (between first List.mem_cons_self).1
    subst start
    refine ⟨more, rfl, ?_⟩
    have last : more.getLastD first ∈ first :: more := by
      rw [← List.getLast_eq_getLastD (l := more) (h := List.cons_ne_nil first more)]
      exact List.getLast_mem _
    refine Nat.le_antisymm (between _ last).2 ?_
    have ends : ∀ (l : List Nat) (a : Nat), (a :: l).Pairwise (· < ·) → ∀ k ∈ a :: l, k ≤ l.getLastD a := by
      intro l
      induction l with
      | nil => exact fun a _ k m => by simpa using Nat.le_of_eq (List.mem_singleton.1 m)
      | cons b l ih =>
        intro a s k m
        obtain ⟨below, s'⟩ := List.pairwise_cons.1 s
        have tail := ih b s'
        rw [List.getLastD_cons]
        obtain rfl | m := List.mem_cons.1 m
        · exact (Nat.le_of_lt (below b List.mem_cons_self)).trans (tail b List.mem_cons_self)
        · exact tail k m
    exact ends more first sorted hi greatest

section
variable {s t u : State} {p q : Port}

/-! ### Read-own (02 R33, R34) -/

theorem uncovered_sorted (v : Option Nat) (k : Nat) (ws : List WriteWord) : (uncovered v k ws).Pairwise (· < ·) :=
  (run_sorted 0 ws.length).filter _

theorem mem_uncovered {v : Option Nat} {off n i : Nat} {l : List Buffer} :
    i ∈ uncovered v off ((run off n).map (overlay l)) ↔ i < n ∧ v ≠ some (off + i) ∧ (overlay l (off + i)).enables ≠ 0xF := by
  unfold uncovered
  rw [List.mem_filter, List.length_map, run_length, mem_run, Nat.zero_add]
  by_cases h : i < n
  · rw [List.getElem?_map, run_getElem? h]
    simp [h]
  · simp [h]

theorem mergeWord_all (old new : Word) : mergeWord old new 0xF = new := word_ext fun i => by
  have on : (0xF : Marks).getLsbD i.val = true := by revert i; decide
  rw [mergeWord_byte, on]
  rfl

theorem statusOfMark_eq (m : Mark) : statusOfMark m = if m = .torn then .torn else .okay := by cases m <;> rfl

/-- With every byte supplied, the piece's words are the snapshot's. -/
theorem ownWords_covered {v : Option Nat} {off n : Nat} {l : List Buffer} {version : Half} {mark : Mark}
    (h : ∀ k, k < n → v ≠ some (off + k) → (overlay l (off + k)).enables = 0xF) :
    ownWords ⟨off, v, (run off n).map (overlay l), version, mark, 0⟩ [] =
      (run off n).map fun k => if v = some k then version.setWidth 32 else (overlay l k).data := by
  unfold ownWords
  rw [List.length_map, run_length, run_eq_map off n, List.map_map, List.map_map]
  refine List.map_congr_left fun i m => ?_
  have lt : i < n := by simpa using (mem_run.1 m).2
  have word : (((run 0 n).map (overlay l ∘ (off + ·))).getD i ⟨0, 0⟩) = overlay l (off + i) := by
    rw [List.getD_eq_getElem?_getD, List.getElem?_map, run_getElem? lt, Nat.zero_add]
    rfl
  unfold ownWord
  dsimp only [Function.comp]
  rw [word]
  by_cases version : v = some (off + i)
  · rw [if_pos version, if_pos version]
    rfl
  · rw [if_neg version, if_neg version, h i lt version, mergeWord_all]

theorem State.handPiece_readOwn {r : Request} {x : Spot} (k n : Nat) (read : isRead r = true) (writer : (s.definition x.region).writer = p) :
    s.handPiece p r k n (some x) = s.readOwn p x n (beatAddress r k) := by
  unfold State.handPiece
  simp only [if_pos writer, read, if_true]

/-- Settles O17: read-own asks memory for the run that its buffers leave open, or answers from them. -/
theorem readOwnReadsWhatTheBuffersDoNotSupply : Obligations.ReadOwnReadsWhatTheBuffersDoNotSupply := by
  intro p a n x s rest serves within writer d bufs e supplied open'
  have piece := within.piece (Request.beats_pos serves.formed)
  have hand : (s.taken p (.read a n)).handPiece p (.read a n) 0 n (some x) = (s.taken p (.read a n)).readOwn p x n a := by
    have writer' : ((s.taken p (.read a n)).definition x.region).writer = p := writer
    rw [State.handPiece_readOwn 0 n rfl writer', beatAddress_zero]
    rfl
  have same : (s.taken p (.read a n)).definition x.region = d ∧ (s.taken p (.read a n)).entry x.region x.record = e ∧
      ((s.taken p (.read a n)).basisOf x.region x.record ++ ((s.taken p (.read a n)).gatheringOf x.region x.record).toList).map
        (s.taken p (.read a n)).buffer = bufs := ⟨rfl, rfl, rfl⟩
  have members : ∀ i, i ∈ uncovered d.versionWord x.offset supplied ↔ open' i := fun i => mem_uncovered
  unfold State.readOwn at hand
  simp only [same] at hand
  refine ⟨fun lo hi least greatest between => ?_, fun covered => ?_⟩
  · obtain ⟨more, first, last⟩ := sorted_ends (uncovered_sorted d.versionWord x.offset supplied) ((members lo).2 least)
      ((members hi).2 greatest) fun k m => between k ((members k).1 m)
    have first' : uncovered d.versionWord x.offset ((run x.offset n).map (overlay bufs)) = lo :: more := first
    simp only [first', last] at hand
    exact serves.waits (n := n) (w := .readOwn ⟨x.offset, d.versionWord, supplied, e.version, e.torn, lo⟩)
      (u := s.setPlainRequest p (some (.read (a + BitVec.ofNat 32 (4 * lo)) (hi + 1 - lo)))) piece hand rfl rest
      (rest.carry_pool rfl rfl rfl rfl rfl) nofun
  · have none : uncovered d.versionWord x.offset ((run x.offset n).map (overlay bufs)) = [] :=
      List.eq_nil_iff_forall_not_mem.2 fun i m => covered i ((members i).1 m)
    simp only [none] at hand
    have words := ownWords_covered (v := d.versionWord) (off := x.offset) (n := n) (l := bufs) (version := e.version) (mark := e.torn)
      fun k lt version => by
        by_contra n'
        exact covered k ⟨lt, version, n'⟩
    rw [words, statusOfMark_eq] at hand
    exact serves.answers (u := s) piece hand rfl rest rest

end

end Sys2Proof.Machine

/-! SUPPORT. A view that opens, and the reads that views answer (05 R85 to R91, R98, R99, R103). -/

namespace Sys2Proof.Machine

section
variable {s t u : State} {p q : Port}

/-! ### The view store's operations do not look at the ports -/

theorem State.lowerWaits_setPort (s : State) (p : Port) (y : PortState) (l : List BufId) :
    (s.setPort p y).lowerWaits l = (s.lowerWaits l).setPort p y := State.foldl_setPort (fun _ _ => rfl) l s

theorem State.endCapture_setPort (s : State) (p : Port) (y : PortState) (c : Capture) :
    (s.setPort p y).endCapture c = (s.endCapture c).setPort p y := (s.setCaptures (s.captures.erase c)).lowerWaits_setPort p y c.holdSet

theorem State.releaseView_setPort (s : State) (p q : Port) (y : PortState) (v : ViewIx) :
    (s.setPort p y).releaseView q v = (s.releaseView q v).setPort p y := by
  have captures : (s.setPort p y).captures = s.captures := rfl
  unfold State.releaseView
  dsimp only
  rw [captures]
  cases s.captures.find? fun c => c.fills q v with
  | none => rfl
  | some c =>
    dsimp only
    cases c.state with
    | queued => exact (s.freeView q v).endCapture_setPort p y c
    | requesting => exact ((s.freeView q v).setCaptureRequest none).endCapture_setPort p y c
    | reading => rfl

theorem State.openView_setPort (s : State) (p q : Port) (y : PortState) (v : ViewIx) (r : RegionId) (k : Nat) :
    (s.setPort p y).openView q v r k = (s.openView q v r k).setPort p y := by
  have d : (s.setPort p y).definition r = s.definition r := rfl
  have e : (s.setPort p y).entry r k = s.entry r k := rfl
  have basis : (s.setPort p y).basisOf r k = s.basisOf r k := rfl
  have buffer : (s.setPort p y).buffer = s.buffer := rfl
  have view : (s.setPort p y).view q v = s.view q v := rfl
  have now : (s.setPort p y).timebase = s.timebase := rfl
  unfold State.openView
  simp only [d, e, basis, buffer, view, now]
  split <;> rfl

/-! ### Releasing a view that no capture fills -/

/-- No capture fills a view that is not CAPTURING (05 R94). -/
theorem State.ViewsLawful.uncaptured (h : s.ViewsLawful) {v : ViewIx} (n : (s.view p v).state ≠ .capturing) :
    s.captures.find? (fun c => c.fills p v) = none := by
  refine List.find?_eq_none.2 fun c m fills => n ?_
  obtain ⟨rfl, view⟩ := Capture.fills_iff.1 fills
  exact (h.fills c m v view).1

theorem State.releaseView_unfilled {v : ViewIx} (h : s.captures.find? (fun c => c.fills p v) = none) : s.releaseView p v = s.freeView p v := by
  unfold State.releaseView
  dsimp only
  rw [h]
  rfl

/-! ### A view used (05 R98, R99) -/

/-- The view store after a view has answered a piece: to the back of the use list, and then released if the piece includes the release
word. -/
def State.usedView (s : State) (p : Port) (v : ViewIx) (x : Spot) (n : Nat) : State :=
  if x.offset ≤ (s.definition x.region).releaseOffset ∧ (s.definition x.region).releaseOffset < x.offset + n then
    (s.setUseList p ((s.views.get p).useList.erase v ++ [v])).releaseView p v
  else s.setUseList p ((s.views.get p).useList.erase v ++ [v])

theorem State.usedView_releases {v : ViewIx} {x : Spot} {n : Nat} (h : s.Releases x n) :
    s.usedView p v x n = (s.setUseList p ((s.views.get p).useList.erase v ++ [v])).releaseView p v := if_pos h

theorem State.usedView_keeps {v : ViewIx} {x : Spot} {n : Nat} (h : ¬ s.Releases x n) :
    s.usedView p v x n = s.setUseList p ((s.views.get p).useList.erase v ++ [v]) := if_neg h

theorem State.releases_congr {x : Spot} {n : Nat} (h : t.regions = s.regions) : t.Releases x n ↔ s.Releases x n := by
  unfold State.Releases
  rw [State.definition_congr h]

theorem State.usedView_setPort (s : State) (p q : Port) (y : PortState) (v : ViewIx) (x : Spot) (n : Nat) :
    (s.setPort p y).usedView q v x n = (s.usedView q v x n).setPort p y := by
  have d : (s.setPort p y).definition x.region = s.definition x.region := rfl
  unfold State.usedView
  rw [d]
  split
  · exact (s.setUseList q ((s.views.get q).useList.erase v ++ [v])).releaseView_setPort p q y v
  · rfl

theorem State.usedView_writes (s : State) (p : Port) (v : ViewIx) (x : Spot) (n : Nat) :
    s.Writes [.views, .capture, .captures, .pool] (s.usedView p v x n) := by
  have used : s.Writes [.views] (s.setUseList p ((s.views.get p).useList.erase v ++ [v])) := s.setViews_writes ..
  unfold State.usedView
  split
  · exact (used.seq (State.releaseView_writes _ p v)).mono
  · exact used.mono

/-- A piece answered from a view (05 R98, R99). -/
theorem State.answerFromView_eq (s : State) (p : Port) (v : ViewIx) (x : Spot) (n : Nat) : s.answerFromView p v x n =
    (s.usedView p v x n).finishPiece p n (statusOfMark (s.view p v).torn) (viewWords (s.definition x.region) (s.view p v) x.offset n) := by
  have finish : ∀ t : State, t.port p = s.port p → t.finishPiece p n (statusOfMark (s.view p v).torn)
      (viewWords (s.definition x.region) (s.view p v) x.offset n) = t.setPort p (((s.finishPiece p n (statusOfMark (s.view p v).torn)
      (viewWords (s.definition x.region) (s.view p v) x.offset n))).port p) := fun t e => by
    unfold State.finishPiece State.setService
    rw [State.setPort_port_same, e]
  have port : (s.usedView p v x n).port p = s.port p := congrArg (fun y => y.get p) (s.usedView_writes p v x n).ports
  rw [finish _ port, ← State.usedView_setPort]
  unfold State.answerFromView State.usedView
  dsimp only
  have whole : s.finishPiece p n (statusOfMark (s.view p v).torn) (viewWords (s.definition x.region) (s.view p v) x.offset n) =
      s.setPort p ((s.finishPiece p n (statusOfMark (s.view p v).torn) (viewWords (s.definition x.region) (s.view p v) x.offset n)).port p) :=
    finish s rfl
  rw [whole, State.setPort_port_same]
  rfl

/-- Rest is kept where the views of one port change and that port has nothing queued. -/
theorem State.AtRest.carry_views (rest : s.AtRest) (empty : (s.port p).queue = []) (ports : t.ports = s.ports)
    (views : ∀ q, q ≠ p → t.views.get q = s.views.get q) (link : t.link = s.link) (regions : t.regions = s.regions)
    (k : s.KeepsUpdates t) : t.AtRest := by
  refine .intro (fun q => ?_) (rest.awaits.carry link regions fun b n => ?_)
  · have port : t.port q = s.port q := congrArg (fun x => x.get q) ports
    by_cases e : q = p
    · subst e
      exact State.canAdvance_empty (port ▸ empty)
    · exact (State.canAdvance_congr port (views q e)).trans (rest.still q)
  · rw [k.state, k.region]
    exact ⟨n, rfl⟩

theorem State.releaseView_views (s : State) (p : Port) (v : ViewIx) : (s.releaseView p v).views = (s.freeView p v).views := by
  unfold State.releaseView
  dsimp only
  split
  · rfl
  · split
    · exact (State.endCapture_writes ..).views
    · exact (State.endCapture_writes ..).views
    · rfl

theorem State.releaseView_useList (s : State) (p : Port) (v : ViewIx) :
    ((s.releaseView p v).views.get p).useList = (s.views.get p).useList.erase v := by
  rw [State.releaseView_views]
  exact congrArg PortViews.useList (PerPort.get_set_same ..)

theorem State.releaseView_others (s : State) (p : Port) (v : ViewIx) (q : Port) (ne : q ≠ p) : (s.releaseView p v).views.get q = s.views.get q := by
  rw [State.releaseView_views]
  exact PerPort.get_set_other _ _ ne

theorem State.setUseList_others (s : State) (p : Port) (l : List ViewIx) (q : Port) (ne : q ≠ p) :
    (s.setUseList p l).views.get q = s.views.get q := PerPort.get_set_other _ _ ne

theorem State.usedView_others (s : State) (p : Port) (v : ViewIx) (x : Spot) (n : Nat) (q : Port) (ne : q ≠ p) :
    (s.usedView p v x n).views.get q = s.views.get q := by
  unfold State.usedView
  split
  · rw [State.releaseView_others _ p v q ne, State.setUseList_others _ p _ q ne]
  · exact State.setUseList_others _ p _ q ne

theorem State.usedView_keepsUpdates (s : State) (p : Port) (v : ViewIx) (x : Spot) (n : Nat) : s.KeepsUpdates (s.usedView p v x n) := by
  have used : s.KeepsUpdates (s.setUseList p ((s.views.get p).useList.erase v ++ [v])) := .of_writes (s.setViews_writes ..)
  unfold State.usedView
  split
  · exact used.trans (State.releaseView_keepsUpdates ..)
  · exact used

theorem State.AtRest.usedView (rest : s.AtRest) (empty : (s.port p).queue = []) (v : ViewIx) (x : Spot) (n : Nat) :
    (s.usedView p v x n).AtRest :=
  have w := s.usedView_writes p v x n
  rest.carry_views empty w.ports (s.usedView_others p v x n) w.link w.regions (s.usedView_keepsUpdates p v x n)

/-! ### Reads of a reader (05 R87, R98) -/

theorem pieceFilled_iff {v : View} {x : Spot} {n : Nat} : pieceFilled v x.offset n = true ↔ FilledFor v x n := by
  unfold pieceFilled FilledFor
  rw [List.all_eq_true]
  refine ⟨fun h k lt => h _ (mem_run.2 ⟨Nat.le_add_right .., by omega⟩), fun h k m => ?_⟩
  obtain ⟨le, lt⟩ := mem_run.1 m
  have := h (k - x.offset) (by omega)
  rwa [Nat.add_sub_cancel' le] at this

theorem State.handPiece_view {r : Request} {x : Spot} (k n : Nat) (read : isRead r = true) (writer : (s.definition x.region).writer ≠ p)
    (reader : (s.definition x.region).readers.get p = true) : s.handPiece p r k n (some x) = s.viewPiece p x n := by
  unfold State.handPiece
  simp only [if_neg writer, read, if_true, reader]

theorem State.viewPiece_found {x : Spot} {n : Nat} {v : ViewIx} (h : s.viewOf p x.region x.record = some v) :
    s.viewPiece p x n = s.serveFromView p v x n := by
  unfold State.viewPiece
  rw [h]

theorem State.viewPiece_opens {x : Spot} {n : Nat} {v : ViewIx} (h : s.viewOf p x.region x.record = none) (k : s.viewToOpen p = some v) :
    s.viewPiece p x n = ((s.releaseView p v).openView p v x.region x.record).serveFromView p v x n := by
  unfold State.viewPiece
  rw [h, k]

theorem State.viewPiece_awaits {x : Spot} {n : Nat} (h : s.viewOf p x.region x.record = none) (k : s.viewToOpen p = none) :
    s.viewPiece p x n = s.awaitPiece p n (some x) .forView := by
  unfold State.viewPiece
  rw [h, k]

theorem State.serveFromView_filled {x : Spot} {n : Nat} {v : ViewIx} (h : FilledFor (s.view p v) x n) :
    s.serveFromView p v x n = s.answerFromView p v x n := if_pos (pieceFilled_iff.2 h)

theorem State.serveFromView_unfilled {x : Spot} {n : Nat} {v : ViewIx} (h : ¬ FilledFor (s.view p v) x n) :
    s.serveFromView p v x n = s.awaitPiece p n (some x) (.onView v) := if_neg fun k => h (pieceFilled_iff.1 k)

theorem viewWords_eq (s : State) (x : Spot) (n : Nat) (v : View) :
    (⟨statusOfMark v.torn, viewWords (s.definition x.region) v x.offset n⟩ : Response) = s.viewResponse x n v := by
  rw [statusOfMark_eq]
  rfl

/-- A read that a view answers, in the state of the view store that it comes to. -/
theorem State.ServesAtOnce.viewed {a : Word} {n : Nat} {x : Spot} {v : ViewIx} (h : s.ServesAtOnce p (.read a n)) (rest : s.AtRest)
    (within : s.Within (.read a n) x) (rest' : u.AtRest) (ports : u.ports = s.ports) (regions : u.regions = s.regions)
    (hand : (s.taken p (.read a n)).handPiece p (.read a n) 0 n (some x) = (u.taken p (.read a n)).serveFromView p v x n)
    (filled : FilledFor (u.view p v) x n) :
    exec (.requestTaken p (.read a n)) s = .next ((u.usedView p v x n).answered p (s.viewResponse x n (u.view p v))) := by
  have port : u.port p = s.port p := congrArg (fun y => y.get p) ports
  have w := u.usedView_writes p v x n
  have filled' : FilledFor ((u.taken p (.read a n)).view p v) x n := filled
  have taken : (u.taken p (.read a n)).usedView p v x n = (u.usedView p v x n).taken p (.read a n) := by
    have port' : (u.usedView p v x n).port p = u.port p := congrArg (fun y => y.get p) w.ports
    unfold State.taken
    rw [State.usedView_setPort, port']
  rw [State.serveFromView_filled filled', State.answerFromView_eq, taken] at hand
  have row := h.answers (within.piece (Request.beats_pos h.formed)) hand (w.ports.trans ports) rest (rest'.usedView (port ▸ h.empty) v x n)
  rw [← viewWords_eq, ← State.definition_congr regions]
  exact row

/-- A read that waits on a view. -/
theorem State.ServesAtOnce.unviewed {a : Word} {n : Nat} {x : Spot} {v : ViewIx} (h : s.ServesAtOnce p (.read a n)) (rest : s.AtRest)
    (within : s.Within (.read a n) x) (rest' : u.AtRest) (ports : u.ports = s.ports)
    (hand : (s.taken p (.read a n)).handPiece p (.read a n) 0 n (some x) = (u.taken p (.read a n)).serveFromView p v x n)
    (filled : ¬ FilledFor (u.view p v) x n) :
    exec (.requestTaken p (.read a n)) s = .next (u.setPort p ((s.serving p (.read a n) (some x) (.onView v)).port p)) := by
  have filled' : ¬ FilledFor ((u.taken p (.read a n)).view p v) x n := filled
  rw [State.serveFromView_unfilled filled'] at hand
  rw [h.waits (n := n) (within.piece (Request.beats_pos h.formed)) hand ports rest rest' nofun]
  unfold State.serving
  rw [State.setPort_port_same]
  rfl

@[simp] theorem State.setUseList_view (s : State) (p q : Port) (l : List ViewIx) (v : ViewIx) : (s.setUseList p l).view q v = s.view q v := by
  unfold State.setUseList
  rw [State.setViews_view]
  split
  · next e => rw [e]; rfl
  · rfl

@[simp] theorem State.setUseList_useList (s : State) (p : Port) (l : List ViewIx) : ((s.setUseList p l).views.get p).useList = l :=
  congrArg PortViews.useList (PerPort.get_set_same ..)

/-- A view at the back of the use list and then released is out of it. -/
theorem State.ViewsLawful.erase_last (h : s.ViewsLawful) (p : Port) (v : ViewIx) :
    ((s.views.get p).useList.erase v ++ [v]).erase v = (s.views.get p).useList.erase v := by
  rw [List.erase_append_right _ (h.use_nodup p).not_mem_erase, List.erase_cons_head, List.append_nil]

/-- Settles O19: a HELD view answers, and a CAPTURING one does where the piece's words are filled. -/
theorem aHeldViewAnswersItsPortsReads : Obligations.AHeldViewAnswersItsPortsReads := by
  refine ⟨fun p a n x v s rest lawful serves within writer reader found held filled => ?_,
    fun p a n x v s rest lawful serves within writer reader found capturing => ?_⟩
  · intro d releases u
    have hand : (s.taken p (.read a n)).handPiece p (.read a n) 0 n (some x) = (s.taken p (.read a n)).serveFromView p v x n := by
      have found' : (s.taken p (.read a n)).viewOf p x.region x.record = some v := found
      exact (State.handPiece_view (s := s.taken p (.read a n)) 0 n rfl writer reader).trans (State.viewPiece_found found')
    have row := serves.viewed rest within rest rfl rfl hand filled
    refine ⟨fun r => ?_, fun r => ?_⟩
    · have unfilled : (s.setUseList p ((s.views.get p).useList.erase v ++ [v])).captures.find? (fun c => c.fills p v) = none :=
        lawful.uncaptured (by rw [held]; nofun)
      have used : s.usedView p v x n = s.setViews p
          { views := put (s.views.get p).views v { s.view p v with state := .free }, useList := (s.views.get p).useList.erase v } := by
        rw [State.usedView_releases r, State.releaseView_unfilled unfilled]
        unfold State.freeView
        rw [State.setUseList_view]
        unfold State.setUseList State.setViews
        simp only [PerPort.get_set_same, PerPort.set_set, lawful.erase_last]
      rw [row, used]
      rfl
    · have used : s.usedView p v x n = s.setUseList p ((s.views.get p).useList.erase v ++ [v]) := State.usedView_keeps r
      rw [row, used]
      rfl
  · intro u others
    have hand : (s.taken p (.read a n)).handPiece p (.read a n) 0 n (some x) = (s.taken p (.read a n)).serveFromView p v x n := by
      have found' : (s.taken p (.read a n)).viewOf p x.region x.record = some v := found
      exact (State.handPiece_view (s := s.taken p (.read a n)) 0 n rfl writer reader).trans (State.viewPiece_found found')
    refine ⟨fun filled r => ?_, fun filled r => ?_, fun n' => ?_⟩
    · have used : s.usedView p v x n = s.setUseList p ((s.views.get p).useList.erase v ++ [v]) := State.usedView_keeps r
      rw [serves.viewed rest within rest rfl rfl hand filled, used]
      rfl
    · have row := serves.viewed rest within rest rfl rfl hand filled
      have used : s.usedView p v x n = (s.setUseList p ((s.views.get p).useList.erase v ++ [v])).releaseView p v := State.usedView_releases r
      have released := (lawful.touch (p := p) (v := v) (by rw [capturing]; nofun)).releaseView p v
      have w := s.usedView_writes p v x n
      rw [used] at row w
      have view := State.releaseView_view (s.setUseList p ((s.views.get p).useList.erase v ++ [v])) p p v v
      rw [if_pos ⟨rfl, rfl⟩, State.setUseList_view] at view
      have order := State.releaseView_useList (s.setUseList p ((s.views.get p).useList.erase v ++ [v])) p v
      rw [State.setUseList_useList, lawful.erase_last] at order
      have port := congrArg (fun y => y.get p) w.ports
      generalize (s.setUseList p ((s.views.get p).useList.erase v ++ [v])).releaseView p v = t at *
      refine ⟨_, row, ?_, view, order, fun c m => ?_, w.versions, w.events⟩
      · refine (State.setPort_port_same ..).trans (Eq.trans ?_ (State.setPort_port_same ..).symm)
        exact congrArg (fun y : PortState => { y with responses := y.responses ++ [s.viewResponse x n (s.view p v)] }) port
      · rw [Bool.eq_false_iff]
        intro fills
        obtain ⟨rfl, named⟩ := Capture.fills_iff.1 fills
        have state := (released.fills c m v named).1
        rw [view] at state
        cases state
    · rw [serves.unviewed rest within rest rfl hand n']
      unfold State.serving
      rw [State.setPort_port_same]

end

end Sys2Proof.Machine

/-! SUPPORT. A view that opens (05 R85 to R91): what it holds, and what the view store and the capture queue hold then. -/

namespace Sys2Proof.Machine

section
variable {s t u : State} {p q : Port}

/-! ### The words of an opening view (05 R89) -/

/-- An opening writes the view's image, supplied marks and fill mask alone. -/
theorem openedView_kept (d : Definition) (x : View) (l : List Buffer) : (openedView d x l).version = x.version ∧
    (openedView d x l).torn = x.torn ∧ (openedView d x l).basis = x.basis ∧ (openedView d x l).startTime = x.startTime := by
  have supplied : ∀ (ks : List Nat) (x : View), (ks.foldl (View.supply l) x).version = x.version ∧
      (ks.foldl (View.supply l) x).torn = x.torn ∧ (ks.foldl (View.supply l) x).basis = x.basis ∧
      (ks.foldl (View.supply l) x).startTime = x.startTime := fun ks => by
    induction ks with
    | nil => exact fun x => ⟨rfl, rfl, rfl, rfl⟩
    | cons k ks ih => exact fun x => ih (x.supply l k)
  rw [openedView_eq]
  unfold View.withVersionWord
  split <;> exact supplied ..

theorem View.supply_fold (l : List Buffer) (ks : List Nat) (x : View) (k : Fin 16) :
    cell (ks.foldl (View.supply l) x).fill k = (if k.val ∈ ks then (overlay l k.val).enables == 0xF else cell x.fill k) ∧
    cell (ks.foldl (View.supply l) x).supplied k = (if k.val ∈ ks then (overlay l k.val).enables else cell x.supplied k) ∧
    cell (ks.foldl (View.supply l) x).image k = if k.val ∈ ks then (overlay l k.val).data else cell x.image k := by
  induction ks generalizing x with
  | nil => exact ⟨rfl, rfl, rfl⟩
  | cons j ks ih =>
    obtain ⟨fill, supplied, image⟩ := ih (x.supply l j)
    rw [List.foldl_cons, fill, supplied, image]
    by_cases m : k.val ∈ ks
    · simp [m]
    · by_cases e : k.val = j
      · subst e
        have lt := k.isLt
        simp [m, View.supply, cell_eq_cellD _ k false, cell_eq_cellD _ k (0 : Marks), cell_eq_cellD _ k (0 : Word), cellD_putD]
      · simp [m, View.supply, e, cell_eq_cellD _ k false, cell_eq_cellD _ k (0 : Marks), cell_eq_cellD _ k (0 : Word), cellD_putD]

theorem View.withVersionWord_cells (d : Definition) (x : View) (k : Fin 16) :
    cell (x.withVersionWord d).fill k = (decide (d.versionWord = some k.val) || cell x.fill k) ∧
    cell (x.withVersionWord d).supplied k = cell x.supplied k ∧
    cell (x.withVersionWord d).image k = if d.versionWord = some k.val then versionAsWord x.version else cell x.image k := by
  unfold View.withVersionWord
  split
  · next e => simp [e]
  · next j e =>
    by_cases h : k.val = j
    · subst h
      simp [e, cell_eq_cellD _ k false, cell_eq_cellD _ k (0 : Word), cellD_putD]
    · have h' : j ≠ k.val := Ne.symm h
      simp [e, h, h', cell_eq_cellD _ k false, cell_eq_cellD _ k (0 : Word), cellD_putD]

/-- The words of an opening view: what its basis supplies, and the version word. -/
theorem openedView_cells (d : Definition) (x : View) (l : List Buffer) (k : Fin 16) :
    cell (openedView d x l).fill k =
      (decide (d.versionWord = some k.val) || if k.val < d.recordWords then (overlay l k.val).enables == 0xF else cell x.fill k) ∧
    cell (openedView d x l).supplied k = (if k.val < d.recordWords then (overlay l k.val).enables else cell x.supplied k) ∧
    cell (openedView d x l).image k = if d.versionWord = some k.val then versionAsWord x.version
      else if k.val < d.recordWords then (overlay l k.val).data else cell x.image k := by
  have version : ((run 0 d.recordWords).foldl (View.supply l) x).version = x.version := by
    generalize run 0 d.recordWords = ks
    induction ks generalizing x with
    | nil => rfl
    | cons k ks ih => exact ih (x.supply l k)
  have words : k.val ∈ run 0 d.recordWords ↔ k.val < d.recordWords := by rw [mem_run]; omega
  obtain ⟨fill, supplied, image⟩ := View.supply_fold l (run 0 d.recordWords) x k
  obtain ⟨fill', supplied', image'⟩ := View.withVersionWord_cells d ((run 0 d.recordWords).foldl (View.supply l) x) k
  simp only [words] at fill supplied image
  rw [openedView_eq, fill', supplied', image', fill, supplied, image, version]
  exact ⟨rfl, rfl, rfl⟩

/-- A view of a record that opens, no word of it supplied yet (05 R89, R90). -/
def State.blankView (s : State) (p : Port) (v : ViewIx) (x : Spot) : View :=
  { state := .capturing, region := x.region, record := x.record
    version := (s.entry x.region x.record).version + halfOf (s.basisOf x.region x.record).length
    torn := indicatorOf (s.definition x.region) ((s.basisOf x.region x.record).map s.buffer) (s.entry x.region x.record).torn
    image := Vector.replicate 16 0, supplied := Vector.replicate 16 0, fill := Vector.replicate 16 false
    basis := s.basisOf x.region x.record, startTime := s.timebase, completeTime := (s.view p v).completeTime }

/-- The view that an opening makes, before any word of it comes from memory. -/
def State.newView (s : State) (p : Port) (v : ViewIx) (x : Spot) : View :=
  openedView (s.definition x.region) (s.blankView p v x) ((s.basisOf x.region x.record).map s.buffer)

theorem indicatorOf_eq (s : State) (d : Definition) (l : List BufId) (m : Mark) : indicatorOf d (l.map s.buffer) m =
    if ∃ b ∈ l, covers d (s.buffer b).mask = true ∧ (s.buffer b).preTorn = false then .clean else m := by
  unfold indicatorOf
  refine if_congr ?_ rfl rfl
  rw [List.any_map, List.any_eq_true]
  simp only [Function.comp, Bool.and_eq_true, Bool.not_eq_true']

theorem State.newView_justOpened (s : State) (p : Port) (v : ViewIx) (x : Spot) : s.JustOpened x (s.newView p v x) := by
  obtain ⟨-, region, record⟩ := openedView_fields (s.definition x.region) (s.blankView p v x) ((s.basisOf x.region x.record).map s.buffer)
  obtain ⟨version, torn, basis, startTime⟩ :=
    openedView_kept (s.definition x.region) (s.blankView p v x) ((s.basisOf x.region x.record).map s.buffer)
  have cells := openedView_cells (s.definition x.region) (s.blankView p v x) ((s.basisOf x.region x.record).map s.buffer)
  have blankBasis : (s.blankView p v x).basis = s.basisOf x.region x.record := rfl
  have blankTorn : (s.blankView p v x).torn =
    indicatorOf (s.definition x.region) ((s.basisOf x.region x.record).map s.buffer) (s.entry x.region x.record).torn := rfl
  have blankVersion : (s.blankView p v x).version = (s.entry x.region x.record).version + BitVec.ofNat 16 (s.basisOf x.region x.record).length := rfl
  have blankFill : ∀ k, cell (s.blankView p v x).fill k = false := cell_replicate false
  have blankSupplied : ∀ k, cell (s.blankView p v x).supplied k = 0 := cell_replicate 0
  have blankImage : ∀ k, cell (s.blankView p v x).image k = 0 := cell_replicate 0
  rw [blankBasis] at basis
  rw [blankVersion] at version
  rw [blankTorn, indicatorOf_eq] at torn
  simp only [blankFill, blankSupplied, blankImage, blankVersion] at cells
  unfold State.newView
  generalize openedView (s.definition x.region) (s.blankView p v x) ((s.basisOf x.region x.record).map s.buffer) = y at *
  refine ⟨region, record, basis, by rw [version, basis], by rw [torn, basis], startTime, fun k => ?_, fun k => ?_, fun k => ?_⟩
  · rw [(cells k).1, basis]
    by_cases h : k.val < (s.definition x.region).recordWords <;> simp [h, Bool.beq_eq_decide_eq]
  · rw [(cells k).2.1, basis]
  · rw [(cells k).2.2, basis, version]
    rfl

/-- What an opening says of a view it says of one whose state and completion time differ. -/
theorem State.JustOpened.stamped {x : Spot} {v : View} (h : s.JustOpened x v) (st : ViewState) (c : Word) :
    s.JustOpened x { v with state := st, completeTime := c } :=
  ⟨h.region, h.record, h.basis, h.version, h.torn, h.startTime, h.fill, h.supplied, h.image⟩

/-! ### An opening (05 R87, R90, R91) -/

theorem mem_unfilled {d : Definition} {v : View} {k : Nat} : k ∈ unfilled d v ↔ k < d.recordWords ∧ cellD v.fill k false = false := by
  unfold unfilled
  rw [List.mem_filter, mem_run]
  simp

theorem unfilled_sorted (d : Definition) (v : View) : (unfilled d v).Pairwise (· < ·) := (run_sorted 0 d.recordWords).filter _

theorem State.openView_full {v : ViewIx} {x : Spot} (h : unfilled (s.definition x.region) (s.newView p v x) = []) :
    s.openView p v x.region x.record = s.setViews p
      ⟨put (s.views.get p).views v { s.newView p v x with state := .held, completeTime := s.timebase }, (s.views.get p).useList ++ [v]⟩ := by
  unfold State.newView State.blankView at h ⊢
  unfold State.openView
  dsimp only
  rw [h]

theorem State.openView_part {v : ViewIx} {x : Spot} {first : Nat} {more : List Nat}
    (h : unfilled (s.definition x.region) (s.newView p v x) = first :: more) :
    s.openView p v x.region x.record = (s.setViews p
      ⟨put (s.views.get p).views v (s.newView p v x), (s.views.get p).useList ++ [v]⟩).setCaptures
        (s.captures ++ [⟨some v, p, x.region, x.record, first, more.getLastD first + 1 - first, [], .queued, []⟩]) := by
  unfold State.newView State.blankView at h ⊢
  unfold State.openView
  dsimp only
  rw [h]

/-- A view of a port opened for a record, at the back of the use list; with its capture, if a word is to come from memory. -/
structure State.OpensView (s : State) (p : Port) (v : ViewIx) (x : Spot) (t : State) : Prop where
  just : s.JustOpened x (t.view p v)
  useList : (t.views.get p).useList = (s.views.get p).useList.erase v ++ [v]
  others : ∀ w, w ≠ v → t.view p w = s.view p w
  apart : ∀ q, q ≠ p → t.views.get q = s.views.get q
  full : (∀ k, ¬(k < (s.definition x.region).recordWords ∧ cellD (t.view p v).fill k false = false)) →
    (t.view p v).state = .held ∧ (t.view p v).completeTime = s.timebase ∧ t.captures = s.captures
  part : ∀ lo hi, (lo < (s.definition x.region).recordWords ∧ cellD (t.view p v).fill lo false = false) →
    (hi < (s.definition x.region).recordWords ∧ cellD (t.view p v).fill hi false = false) →
    (∀ k, (k < (s.definition x.region).recordWords ∧ cellD (t.view p v).fill k false = false) → lo ≤ k ∧ k ≤ hi) →
    (t.view p v).state = .capturing ∧
      t.captures = s.captures ++ [⟨some v, p, x.region, x.record, lo, hi + 1 - lo, [], .queued, []⟩]
  either : t.captures = s.captures ∨ ∃ c : Capture, c.fills p v = true ∧ c.state = .queued ∧ c.holdSet = [] ∧ t.captures = s.captures ++ [c]
  rest : t = (s.setViews p (t.views.get p)).setCaptures t.captures

theorem State.ViewsLawful.opensView (h : s.ViewsLawful) {v : ViewIx} (n : (s.view p v).state ≠ .capturing) (x : Spot) :
    s.OpensView p v x ((s.releaseView p v).openView p v x.region x.record) := by
  rw [State.releaseView_unfilled (h.uncaptured n)]
  have just : s.JustOpened x ((s.freeView p v).newView p v x) := by
    have j := (s.freeView p v).newView_justOpened p v x
    exact ⟨j.region, j.record, j.basis, j.version, j.torn, j.startTime, j.fill, j.supplied, j.image⟩
  have list : ((s.freeView p v).views.get p).useList = (s.views.get p).useList.erase v := congrArg PortViews.useList (PerPort.get_set_same ..)
  have view : ∀ y l, (((s.freeView p v).setViews p ⟨put ((s.freeView p v).views.get p).views v y, l⟩).view p v) = y := fun y l => by
    rw [State.setViews_view, if_pos rfl, cell_put_same]
  have others : ∀ y l w, w ≠ v → (((s.freeView p v).setViews p ⟨put ((s.freeView p v).views.get p).views v y, l⟩).view p w) = s.view p w :=
    fun y l w ne => by
      rw [State.setViews_view, if_pos rfl, cell_put_other _ _ ne]
      exact (s.freeView_view p p v w).trans (if_neg fun e => ne e.2)
  have order : ∀ y l, (((s.freeView p v).setViews p ⟨y, l⟩).views.get p).useList = l := fun y l =>
    congrArg PortViews.useList (PerPort.get_set_same ..)
  have apart : ∀ y q, q ≠ p → ((s.freeView p v).setViews p y).views.get q = s.views.get q := fun y q ne =>
    (PerPort.get_set_other _ _ ne).trans (PerPort.get_set_other _ _ ne)
  have twice : ∀ y, (s.freeView p v).setViews p y = s.setViews p y := fun y => by
    unfold State.freeView State.setViews
    simp only [PerPort.set_set]
  have rest : ∀ y l, ((s.freeView p v).setViews p y).setCaptures l = (s.setViews p ((((s.freeView p v).setViews p y).setCaptures l).views.get p)).setCaptures
      (((s.freeView p v).setViews p y).setCaptures l).captures := fun y l => by
    have same : (((s.freeView p v).setViews p y).setCaptures l).views.get p = y := PerPort.get_set_same ..
    rw [same, twice]
    rfl
  cases e : unfilled ((s.freeView p v).definition x.region) ((s.freeView p v).newView p v x) with
  | nil =>
    have none : ∀ k, ¬(k < (s.definition x.region).recordWords ∧ cellD ((s.freeView p v).newView p v x).fill k false = false) := fun k m => by
      have := mem_unfilled.2 m
      exact absurd (e ▸ this) List.not_mem_nil
    rw [State.openView_full e, list]
    refine ⟨?_, order _ _, others _ _, apart _, fun _ => ?_, fun lo hi m => ?_, .inl rfl, ?_⟩
    · rw [view]
      exact just.stamped _ _
    · rw [view]
      exact ⟨rfl, rfl, rfl⟩
    · rw [view] at m
      exact absurd m (none lo)
    · exact rest _ s.captures
  | cons first more =>
    rw [State.openView_part e, list]
    refine ⟨?_, order _ _, others _ _, apart _, fun none => ?_, fun lo hi least greatest between => ?_,
      .inr ⟨_, Capture.fills_iff.2 ⟨rfl, rfl⟩, rfl, rfl, rfl⟩, ?_⟩
    · rw [show ∀ (u : State) l, (u.setCaptures l).view p v = u.view p v from fun _ _ => rfl, view]
      exact just
    · rw [show ∀ (u : State) l, (u.setCaptures l).view p v = u.view p v from fun _ _ => rfl, view] at none
      exact absurd (mem_unfilled.1 (e ▸ List.mem_cons_self)) (none first)
    · rw [show ∀ (u : State) l, (u.setCaptures l).view p v = u.view p v from fun _ _ => rfl, view] at *
      obtain ⟨more', e', last⟩ := sorted_ends (unfilled_sorted _ _) (mem_unfilled.2 least) (mem_unfilled.2 greatest)
        fun k m => between k (mem_unfilled.1 m)
      obtain ⟨rfl, rfl⟩ := List.cons.inj (e.symm.trans e')
      refine ⟨(openedView_fields ..).1, ?_⟩
      rw [← last]
      rfl
    · exact rest _ _

/-! ### The first read of a reader (05 R87, R88, R98, R99) -/

theorem State.setUseList_self {l : List ViewIx} (h : (s.views.get p).useList = l) : s.setUseList p l = s := by
  subst h
  unfold State.setUseList State.setViews
  rw [PerPort.set_get_same]

namespace State.OpensView

variable {v : ViewIx} {x : Spot}

/-- A view just opened stands at the back of the use list already. -/
theorem touched (h : s.OpensView p v x t) (lawful : s.ViewsLawful) : t.setUseList p ((t.views.get p).useList.erase v ++ [v]) = t :=
  State.setUseList_self (by rw [h.useList, lawful.erase_last])

/-- A view opened and released in one step leaves no capture behind (05 R103). -/
theorem released (h : s.OpensView p v x t) (lawful : s.ViewsLawful) (n : (s.view p v).state ≠ .capturing) :
    t.releaseView p v = (t.freeView p v).setCaptures s.captures := by
  have none := lawful.uncaptured n
  obtain e | ⟨c, fills, queued, empty, e⟩ := h.either
  · rw [State.releaseView_unfilled (by rw [e]; exact none), ← e]
    rfl
  · have found : t.captures.find? (fun c => c.fills p v) = some c := by
      rw [e, List.find?_append, none]
      exact List.find?_cons_of_pos (p := fun c : Capture => c.fills p v) fills
    have out : c ∉ s.captures := fun m => List.find?_eq_none.1 none c m fills
    have erased : t.captures.erase c = s.captures := by
      rw [e, List.erase_append_right _ out, List.erase_cons_head, List.append_nil]
    have ends : (t.freeView p v).endCapture c = (t.freeView p v).setCaptures (t.captures.erase c) := by
      unfold State.endCapture State.lowerWaits
      rw [empty]
      rfl
    unfold State.releaseView
    dsimp only
    rw [found]
    dsimp only
    rw [queued]
    dsimp only
    rw [← erased, ← ends]
    rfl

theorem ports (h : s.OpensView p v x t) : t.ports = s.ports := by rw [h.rest]; rfl

theorem regions (h : s.OpensView p v x t) : t.regions = s.regions := by rw [h.rest]; rfl

theorem atRest (h : s.OpensView p v x t) (rest : s.AtRest) (empty : (s.port p).queue = []) : t.AtRest := by
  have link : t.link = s.link := by rw [h.rest]; rfl
  have pool : t.pool = s.pool := by rw [h.rest]; rfl
  exact rest.carry_views empty h.ports h.apart link h.regions (.of_pool pool)

end State.OpensView

theorem State.viewToOpen_eq {v : ViewIx} (h : ((s.view p v).state = .free ∧ ∀ w, w < v → (s.view p w).state ≠ .free) ∨
    ((∀ w, (s.view p w).state ≠ .free) ∧ (s.views.get p).useList.find? (fun w => (s.view p w).state = .held) = some v)) :
    s.viewToOpen p = some v := by
  unfold State.viewToOpen
  obtain ⟨free, least⟩ | ⟨busy, held⟩ := h
  · have found : (allViews.find? fun v => decide ((s.view p v).state = .free)) = some v :=
      (find?_least (by decide) mem_allViews).2 ⟨decide_eq_true free, fun w lt => decide_eq_false (least w lt)⟩
    rw [found]
  · have none : (allViews.find? fun v => decide ((s.view p v).state = .free)) = none :=
      List.find?_eq_none.2 fun w _ => by simpa using busy w
    rw [none]
    exact held

theorem State.viewToOpen_none (h : ∀ v, (s.view p v).state = .capturing) : s.viewToOpen p = none := by
  have none : (allViews.find? fun v => decide ((s.view p v).state = .free)) = none :=
    List.find?_eq_none.2 fun w _ => by simp [h w]
  unfold State.viewToOpen
  rw [none]
  exact List.find?_eq_none.2 fun w _ => by simp [h w]

theorem State.answered_port (s : State) (p : Port) (x : Response) :
    (s.answered p x).port p = { s.port p with responses := (s.port p).responses ++ [x] } := State.setPort_port_same ..

theorem State.port_congr (h : t.ports = s.ports) (p : Port) : t.port p = s.port p := congrArg (fun x => x.get p) h

/-- The state after a view was opened for a record, whatever became of the view and its capture in the same step. -/
structure State.ViewedBy (s : State) (p : Port) (v : ViewIx) (x : Spot) (t : State) : Prop where
  just : s.JustOpened x (t.view p v)
  others : ∀ w, w ≠ v → t.view p w = s.view p w
  apart : ∀ q, q ≠ p → t.views.get q = s.views.get q
  ports : t.ports = s.ports
  kept : t.pool = s.pool ∧ t.versions = s.versions ∧ t.events = s.events ∧ t.mem = s.mem ∧ t.engine = s.engine

theorem State.OpensView.viewed {v : ViewIx} {x : Spot} (h : s.OpensView p v x t) : s.ViewedBy p v x t where
  just := h.just
  others := h.others
  apart := h.apart
  ports := h.ports
  kept := by
    rw [h.rest]
    exact ⟨rfl, rfl, rfl, rfl, rfl⟩

theorem State.ViewedBy.freed {v : ViewIx} {x : Spot} (h : s.ViewedBy p v x t) (l : List Capture) :
    s.ViewedBy p v x ((t.freeView p v).setCaptures l) where
  just := by
    have view : ((t.freeView p v).setCaptures l).view p v = { t.view p v with state := .free } :=
      (t.freeView_view p p v v).trans (if_pos ⟨rfl, rfl⟩)
    rw [view]
    exact h.just.stamped .free (t.view p v).completeTime
  others w ne := ((t.freeView_view p p v w).trans (if_neg fun e => ne e.2)).trans (h.others w ne)
  apart q ne := (PerPort.get_set_other _ _ ne).trans (h.apart q ne)
  ports := h.ports
  kept := h.kept

theorem State.ViewedBy.other {v : ViewIx} {x : Spot} (h : s.ViewedBy p v x t) (y : PortState) (ne : q ≠ p) : (t.setPort p y).port q = s.port q :=
  (t.setPort_port_other y ne).trans (State.port_congr h.ports q)

/-- Settles O18: the opening, and then the answer, the answer with its release, or the wait. -/
theorem aReadersFirstReadOpensAView : Obligations.AReadersFirstReadOpensAView := by
  intro p a n x s rest lawful serves within writer reader none
  have none' : (s.taken p (.read a n)).viewOf p x.region x.record = Option.none := none
  have hand := State.handPiece_view (s := s.taken p (.read a n)) (r := .read a n) (x := x) 0 n rfl writer reader
  refine ⟨fun v opens => ?_, fun capturing => ?_⟩
  · have toOpen := State.viewToOpen_eq opens
    have n' : (s.view p v).state ≠ .capturing := by
      obtain ⟨free, -⟩ | ⟨-, held⟩ := opens
      · rw [free]; nofun
      · have state := List.find?_some (p := fun w => decide ((s.view p w).state = .held)) held
        rw [of_decide_eq_true state]; nofun
    have opened := lawful.opensView n' x
    have toOpen' : (s.taken p (.read a n)).viewToOpen p = some v := toOpen
    rw [State.viewPiece_opens none' toOpen'] at hand
    have taken : ((s.taken p (.read a n)).releaseView p v).openView p v x.region x.record =
        ((s.releaseView p v).openView p v x.region x.record).taken p (.read a n) := by
      unfold State.taken
      rw [State.releaseView_setPort, State.openView_setPort, State.port_congr opened.ports]
    rw [taken] at hand
    generalize (s.releaseView p v).openView p v x.region x.record = t at opened hand
    have port := State.port_congr opened.ports p
    have rest' := opened.atRest rest serves.empty
    have kept := opened.viewed
    by_cases filled : FilledFor (t.view p v) x n
    · have row := serves.viewed rest within rest' opened.ports opened.regions hand filled
      by_cases releases : s.Releases x n
      · have used : t.usedView p v x n = (t.freeView p v).setCaptures s.captures := by
          rw [State.usedView_releases ((State.releases_congr opened.regions).2 releases), opened.touched lawful,
            opened.released lawful n']
        have view : ((t.freeView p v).setCaptures s.captures).view p v = { t.view p v with state := .free } :=
          (t.freeView_view p p v v).trans (if_pos ⟨rfl, rfl⟩)
        have list : (((t.freeView p v).setCaptures s.captures).views.get p).useList = (s.views.get p).useList.erase v := by
          refine (congrArg PortViews.useList (PerPort.get_set_same ..)).trans ?_
          rw [opened.useList, List.erase_append_right _ (lawful.use_nodup p).not_mem_erase, List.erase_cons_head, List.append_nil]
        have captures : ((t.freeView p v).setCaptures s.captures).captures = s.captures := rfl
        rw [used] at row
        have freed := kept.freed s.captures
        generalize (t.freeView p v).setCaptures s.captures = u at *
        have view' : (u.answered p (s.viewResponse x n (t.view p v))).view p v = { t.view p v with state := .free } := view
        refine ⟨_, row, freed.just, ⟨fun _ => ?_, fun n => absurd ?_ n, fun _ => ?_, fun n => absurd ⟨?_, releases⟩ n⟩, freed.others,
          freed.apart, fun q ne => freed.other _ ne, freed.kept⟩
        · rw [view', State.answered_port, State.answered_port, State.port_congr freed.ports]
          rfl
        · rw [view']; exact filled
        · exact ⟨by rw [view'], list, captures⟩
        · rw [view']; exact filled
      · have used : t.usedView p v x n = t := by
          rw [State.usedView_keeps fun r => releases ((State.releases_congr opened.regions).1 r), opened.touched lawful]
        rw [used] at row
        refine ⟨_, row, kept.just, ⟨fun _ => ?_, fun n => absurd filled n, fun y => absurd y.2 releases, fun _ =>
          ⟨opened.useList, opened.full, opened.part⟩⟩, kept.others, kept.apart, fun q ne => kept.other _ ne, kept.kept⟩
        rw [State.answered_port, State.answered_port, port]
        rfl
    · have row := serves.unviewed rest within rest' opened.ports hand filled
      exact ⟨_, row, kept.just, ⟨fun y => absurd y filled, fun _ => State.setPort_port_same .., fun y => absurd y.1 filled, fun _ =>
          ⟨opened.useList, opened.full, opened.part⟩⟩, kept.others, kept.apart, fun q ne => kept.other _ ne, kept.kept⟩
  · have awaits := State.viewPiece_awaits (n := n) none' (State.viewToOpen_none (s := s.taken p (.read a n)) capturing)
    rw [awaits] at hand
    exact serves.waits (n := n) (u := s) (within.piece (Request.beats_pos serves.formed)) hand rfl rest rest fun _ => State.viewToOpen_none capturing

end

end Sys2Proof.Machine

/-! SUPPORT. Grants (06 R111, R112), and the bursts that the engines request (04 R69 to R73; 05 R91, R95). -/

namespace Sys2Proof.Machine

section
variable {s t u : State} {p : Port}

/-! ### The ring (06 R111) -/

/-- Every requester. -/
def allRequesters : List Requester := [.plain .u0, .plain .u1, .plain .u2, .commit, .capture]

theorem mem_allRequesters : ∀ q : Requester, q ∈ allRequesters
  | .plain p => by cases p <;> decide
  | .commit => by decide
  | .capture => by decide

/-- Every requester stands in the ring, at most four places behind. -/
theorem placesBehind_le (ring q : Requester) : placesBehind ring q ≤ 4 := by
  have all : ∀ r ∈ allRequesters, ∀ q ∈ allRequesters, placesBehind r q ≤ 4 := by decide
  exact all ring (mem_allRequesters ring) q (mem_allRequesters q)

/-- A grant to a requester before another brings the other nearer. -/
theorem placesBehind_next {ring w q : Requester} (h : placesBehind ring w < placesBehind ring q) :
    placesBehind w.next q < placesBehind ring q := by
  have all : ∀ r ∈ allRequesters, ∀ w ∈ allRequesters, ∀ q ∈ allRequesters, placesBehind r w < placesBehind r q →
    placesBehind w.next q < placesBehind r q := by decide
  exact all ring (mem_allRequesters ring) w (mem_allRequesters w) q (mem_allRequesters q) h

/-- The first in a list that meets a condition stands before any other that meets it. -/
theorem findIdx_lt_of_find? {l : List Requester} {f : Requester → Bool} {w q : Requester} (first : l.find? f = some w) (ne : q ≠ w)
    (meets : f q = true) : l.findIdx (· == w) < l.findIdx (· == q) := by
  obtain ⟨fw, before, after, rfl, none⟩ := List.find?_eq_some_iff_append.1 first
  have off : ∀ x ∈ before, f x = false := fun x m => by simpa using none x m
  have apart : ∀ y, f y = true → ∀ x ∈ before, x ≠ y := fun y fy x m e => by
    have fx := off x m
    rw [e, fy] at fx
    cases fx
  have absent : ∀ y, (∀ x ∈ before, x ≠ y) → before.findIdx (· == y) = before.length := fun y h =>
    List.findIdx_eq_length.2 fun x m => by simpa using h x m
  have mine : (before ++ w :: after).findIdx (· == w) = before.length := by
    rw [List.findIdx_append, absent w (apart w fw), if_neg (lt_irrefl _), List.findIdx_cons]
    simp
  have other : before.length < (before ++ w :: after).findIdx (· == q) := by
    rw [List.findIdx_append, absent q (apart q meets), if_neg (lt_irrefl _), List.findIdx_cons]
    have away : (w == q) = false := by simpa using Ne.symm ne
    rw [away]
    simp
  omega

theorem mem_ringFrom (ring q : Requester) : q ∈ ringFrom ring := by
  have all : ∀ r ∈ allRequesters, ∀ q ∈ allRequesters, q ∈ ringFrom r := by decide
  exact all ring (mem_allRequesters ring) q (mem_allRequesters q)

/-! ### The grant (06 R111, R112) -/

theorem exec_memoryGrant (h : s.hardResetLine = false) : exec .memoryGrant s = .next s.grant := by
  show Host.Outcome.next (if s.hardResetLine = true then s else s.grant) = _
  rw [h]
  rfl

theorem State.grant_busy (h : s.mem.outstanding ≠ none) : s.grant = s := by
  unfold State.grant
  cases e : s.mem.outstanding with
  | none => exact absurd e h
  | some _ => rfl

theorem State.grant_none (h : ∀ q, s.mem.pendingOf q = none) : s.grant = s := by
  have none : s.mem.winner = Option.none := List.find?_eq_none.2 fun q _ => by simp [h q]
  unfold State.grant
  rw [none]
  cases s.mem.outstanding <;> rfl

theorem State.grant_won {q : Requester} {m : MemRequest} (idle : s.mem.outstanding = none) (won : s.mem.winner = some q)
    (pending : s.mem.pendingOf q = some m) : s.grant = s.grantTo q m := by
  unfold State.grant
  rw [idle, won]
  dsimp only
  rw [pending]

/-- The memory port after a grant. -/
def MemPort.granted (m : MemPort) (q : Requester) (r : MemRequest) (now : Word) : MemPort :=
  { m.clearPending q with
    outstanding := some ⟨q, m.tagCounter, r, now, List.replicate r.count .unanswered, false⟩
    tagCounter := m.tagCounter + 1
    ring := q.next
    issued := m.issued ++ [⟨m.tagCounter, r⟩] }

theorem State.grantTo_eq (s : State) (q : Requester) (m : MemRequest) : s.grantTo q m = (s.setMem (s.mem.granted q m s.timebase)).tellGrant q := rfl

/-- A requester told of its grant: an engine and the captures change at most. -/
theorem State.tellGrant_eq (s : State) (q : Requester) : s.tellGrant q = (s.setEngine (s.tellGrant q).engine).setCaptures (s.tellGrant q).captures := by
  unfold State.tellGrant
  split
  · rfl
  · split <;> rfl
  · split <;> rfl

theorem MemPort.granted_pendingOf {m : MemPort} {q w : Requester} {r : MemRequest} {now : Word} (ne : q ≠ w) :
    (m.granted w r now).pendingOf q = m.pendingOf q := by
  cases w with
  | plain a =>
    cases q with
    | plain b => exact PerPort.get_set_other _ _ fun e => ne (by rw [e])
    | commit => rfl
    | capture => rfl
  | commit =>
    cases q with
    | plain b => rfl
    | commit => exact absurd rfl ne
    | capture => rfl
  | capture =>
    cases q with
    | plain b => rfl
    | commit => rfl
    | capture => exact absurd rfl ne

/-- Settles O20: the first in ring order is granted, and every grant brings the others nearer. -/
theorem grantsFollowTheRing : Obligations.GrantsFollowTheRing := by
  refine ⟨fun s low => ⟨fun h => ?_, fun before after q m idle ring others pending => ?_⟩, fun s t q m pending low idle row => ⟨placesBehind_le _ _, ?_⟩⟩
  · rw [exec_memoryGrant low]
    exact congrArg Host.Outcome.next (h.elim State.grant_busy State.grant_none)
  · have won : s.mem.winner = some q := by
      refine List.find?_eq_some_iff_append.2 ⟨by rw [pending]; rfl, before, after, ring, fun x mem => ?_⟩
      rw [others x mem]
      rfl
    have mem : ((s.setMem (s.mem.granted q m s.timebase)).tellGrant q).mem = s.mem.granted q m s.timebase := by
      rw [State.tellGrant_eq]
      rfl
    refine ⟨_, by rw [exec_memoryGrant low, State.grant_won idle won pending, State.grantTo_eq], mem, ?_, fun p e => ?_, fun e => ?_, fun e => ?_⟩
    · rw [mem]
      exact State.tellGrant_eq ..
    · subst e
      exact ⟨rfl, rfl⟩
    · subst e
      refine ⟨?_, fun job writing => ?_⟩
      · unfold State.tellGrant
        dsimp only
        split <;> rfl
      · unfold State.tellGrant
        simp only [State.setMem_engine, writing]
        rfl
    · subst e
      refine ⟨?_, fun c cs queue => ?_⟩
      · unfold State.tellGrant
        dsimp only
        split <;> rfl
      · unfold State.tellGrant
        simp only [State.setMem_captures, queue]
        rfl
  · have some' : ∃ w, s.mem.winner = some w := Option.isSome_iff_exists.1
      (List.find?_isSome.2 ⟨q, mem_ringFrom _ q, by rw [pending]; rfl⟩)
    obtain ⟨w, won⟩ := some'
    have asks := List.find?_some won
    obtain ⟨n, pending'⟩ := Option.isSome_iff_exists.1 asks
    have granted : t = (s.setMem (s.mem.granted w n s.timebase)).tellGrant w := by
      rw [exec_memoryGrant low, State.grant_won idle won pending', State.grantTo_eq] at row
      exact (Host.Outcome.next.inj row).symm
    have mem : t.mem = s.mem.granted w n s.timebase := by
      rw [granted, State.tellGrant_eq]
      rfl
    rw [mem]
    by_cases e : q = w
    · subst e
      obtain rfl := Option.some.inj (pending.symm.trans pending')
      exact .inl ⟨_, rfl, rfl, rfl⟩
    · refine .inr ⟨(MemPort.granted_pendingOf e).trans pending, placesBehind_next (findIdx_lt_of_find? won e ?_)⟩
      rw [pending]
      rfl

/-! ### The buffer that the commit engine takes (04 R69, R70) -/

/-- A buffer may be committed: CLOSED with no wait left, and none of its record before it. -/
def State.Eligible (s : State) (earlier : BufId → Prop) (b : BufId) : Prop :=
  (s.buffer b).state = .closed ∧ (s.buffer b).waitCount = 0 ∧
    ∀ e, earlier e → (s.buffer e).ofRecord (s.buffer b).region (s.buffer b).record = false

theorem State.firstEligible_cons {E : List BufId} {b : BufId} {l : List BufId} :
    (s.Eligible (· ∈ E) b → s.firstEligible E (b :: l) = some b) ∧
    (¬ s.Eligible (· ∈ E) b → s.firstEligible E (b :: l) = s.firstEligible (b :: E) l) := by
  have iff : ((s.buffer b).state = .closed ∧ (s.buffer b).waitCount = 0 ∧
      E.all (fun e => !(s.buffer e).ofRecord (s.buffer b).region (s.buffer b).record) = true) ↔ s.Eligible (· ∈ E) b := by
    unfold State.Eligible
    simp only [List.all_eq_true, Bool.not_eq_true']
  exact ⟨fun h => if_pos (iff.2 h), fun h => if_neg fun k => h (iff.1 k)⟩

theorem State.Eligible.congr {E F : BufId → Prop} {b : BufId} (h : s.Eligible E b) (k : ∀ e, F e → E e) : s.Eligible F b :=
  ⟨h.1, h.2.1, fun e m => h.2.2 e (k e m)⟩

theorem State.firstEligible_eq {before after : List BufId} {b : BufId} (E : List BufId) (found : s.Eligible (fun e => e ∈ E ∨ e ∈ before) b)
    (first : ∀ l c m, before = l ++ c :: m → ¬ s.Eligible (fun e => e ∈ E ∨ e ∈ l) c) :
    s.firstEligible E (before ++ b :: after) = some b := by
  induction before generalizing E with
  | nil => exact State.firstEligible_cons.1 (found.congr fun e m => .inl m)
  | cons c before ih =>
    have not : ¬ s.Eligible (· ∈ E) c := fun k =>
      first [] c before rfl (k.congr fun e m => m.elim id fun n => absurd n List.not_mem_nil)
    rw [List.cons_append, State.firstEligible_cons.2 not]
    refine ih (c :: E) (found.congr fun e m => ?_) fun l d m e k => first (c :: l) d m (by rw [e]; rfl) (k.congr fun x n => ?_)
    · obtain m | m := m
      · obtain rfl | m := List.mem_cons.1 m
        · exact .inr List.mem_cons_self
        · exact .inl m
      · exact .inr (List.mem_cons_of_mem c m)
    · obtain n | n := n
      · exact .inl (List.mem_cons_of_mem c n)
      · obtain rfl | n := List.mem_cons.1 n
        · exact .inl List.mem_cons_self
        · exact .inr n

theorem State.firstEligible_none {l : List BufId} (E : List BufId)
    (none : ∀ before after b, l = before ++ b :: after → ¬ s.Eligible (fun e => e ∈ E ∨ e ∈ before) b) : s.firstEligible E l = Option.none := by
  induction l generalizing E with
  | nil => rfl
  | cons c l ih =>
    have not : ¬ s.Eligible (· ∈ E) c := fun k =>
      none [] l c rfl (k.congr fun e m => m.elim id fun n => absurd n List.not_mem_nil)
    rw [State.firstEligible_cons.2 not]
    refine ih (c :: E) fun before after b e k => none (c :: before) after b (by rw [e]; rfl) (k.congr fun x n => ?_)
    obtain n | n := n
    · exact .inl (List.mem_cons_of_mem c n)
    · obtain rfl | n := List.mem_cons.1 n
      · exact .inl List.mem_cons_self
      · exact .inr n

/-! ### The burst (04 R72, R73) -/

theorem mem_burstOffsets {d : Definition} {x : Buffer} {k : Nat} :
    k ∈ burstOffsets d x ↔ k < d.recordWords ∧ (cellD x.mask k 0 ≠ 0 ∨ d.versionWord = some k) := by
  unfold burstOffsets
  rw [List.mem_filter, mem_run, Bool.or_eq_true, bne_iff_ne, beq_iff_eq]
  simp

/-- The burst runs from the lowest word it must reach to the highest. -/
theorem commitJob_eq {d : Definition} {b : BufId} {x : Buffer} {v : Half} {lo hi : Nat} (least : lo ∈ burstOffsets d x)
    (greatest : hi ∈ burstOffsets d x) (between : ∀ k ∈ burstOffsets d x, lo ≤ k ∧ k ≤ hi) :
    commitJob d b x v = ⟨b, lo, (run lo (hi + 1 - lo)).map (burstWord d x v), List.replicate (hi + 1 - lo) .unanswered⟩ := by
  obtain ⟨more, e, last⟩ := sorted_ends ((run_sorted 0 d.recordWords).filter _) least greatest between
  have e' : burstOffsets d x = lo :: more := e
  unfold commitJob
  simp only [e', List.headD_cons, List.getLastD_cons, last]

theorem State.takeCommit_takes {b : BufId} (idle : s.engine = .idle) (found : s.eligible = some b) : s.takeCommit =
    ((s.setBuffer b { s.buffer b with state := .committing }).setCommitRequest (some (.write
      (addressOf (s.definition (s.buffer b).region) (s.buffer b).record
        (commitJob (s.definition (s.buffer b).region) b (s.buffer b) (s.version (s.buffer b).region (s.buffer b).record + 1)).first)
      (commitJob (s.definition (s.buffer b).region) b (s.buffer b) (s.version (s.buffer b).region (s.buffer b).record + 1)).words))).setEngine
      (.requesting (commitJob (s.definition (s.buffer b).region) b (s.buffer b) (s.version (s.buffer b).region (s.buffer b).record + 1))) := by
  unfold State.takeCommit
  simp only [idle, found]

theorem State.takeCommit_busy (h : s.engine ≠ .idle) : s.takeCommit = s := by
  unfold State.takeCommit
  cases e : s.engine with
  | idle => exact absurd e h
  | requesting _ => rfl
  | writing _ => rfl

theorem State.takeCommit_none (h : s.eligible = none) : s.takeCommit = s := by
  unfold State.takeCommit
  rw [h]
  cases s.engine <;> rfl

/-- Settles O25: the commit engine's burst and the front capture's. -/
theorem enginesRequestTheirBursts : Obligations.EnginesRequestTheirBursts := by
  refine ⟨fun s before after b idle order => ?_, fun s h => ?_, fun s => ⟨fun h => ?_, fun c cs front queued => ?_⟩⟩
  · intro x d free found first lo hi reached words
    have offsets : ∀ k, k ∈ burstOffsets d x ↔ k < d.recordWords ∧ (cellD x.mask k 0 ≠ 0 ∨ d.versionWord = some k) := fun k => mem_burstOffsets
    obtain ⟨least, greatest, between⟩ := reached
    have job := commitJob_eq (b := b) (v := s.version x.region x.record + 1) ((offsets lo).2 least) ((offsets hi).2 greatest)
      fun k m => between k ((offsets k).1 m)
    have eligible : s.eligible = some b := by
      unfold State.eligible
      rw [order]
      refine State.firstEligible_eq [] ⟨found.1, found.2.1, fun e m => found.2.2 e (m.elim (fun n => absurd n List.not_mem_nil) id)⟩
        fun l c m e k => first l c m e ⟨k.1, k.2.1, fun x n => k.2.2 x (.inr n)⟩
    show Host.Outcome.next s.takeCommit = _
    rw [State.takeCommit_takes idle eligible, show commitJob (s.definition (s.buffer b).region) b (s.buffer b)
      (s.version (s.buffer b).region (s.buffer b).record + 1) = _ from job]
    rfl
  · refine congrArg Host.Outcome.next ?_
    obtain busy | none := h
    · exact State.takeCommit_busy busy
    · refine State.takeCommit_none (State.firstEligible_none [] fun before after b e k => ?_)
      obtain h | h | ⟨c, m, record⟩ := none before after b e
      · exact h k.1
      · exact h k.2.1
      · rw [k.2.2 c (.inr m)] at record
        cases record
  · refine congrArg Host.Outcome.next ?_
    show s.requestCapture = s
    unfold State.requestCapture
    obtain e | ⟨c, m, n⟩ := h
    · rw [e]
      rfl
    · rw [if_pos (List.any_eq_true.2 ⟨c, m, by simpa using n⟩)]
  · refine congrArg Host.Outcome.next ?_
    show s.requestCapture = _
    have none : ¬ s.captures.any (fun c => c.state != .queued) = true := fun h => by
      obtain ⟨x, m, n⟩ := List.any_eq_true.1 h
      rw [queued x m] at n
      cases n
    unfold State.requestCapture
    rw [if_neg none, front]
    rfl

end

end Sys2Proof.Machine

/-! SUPPORT. What the routers' moves keep in the course of a step: the requests, the outcomes so far, the buffers in use and the held
writes; and with them the long command in execution. -/

namespace Sys2Proof.Machine

/-- No request is taken, dropped or answered, no outcome is lost, no buffer goes to FREE, and a held write that joins the hold list is
held now. -/
structure State.Serves (s t : State) : Prop where
  requests : s.KeepsRequests t
  outcomes : ∀ p, (s.port p).service.outcomes <+: (t.port p).service.outcomes
  busy : ∀ b, (s.buffer b).state ≠ .free → (t.buffer b).state ≠ .free ∧ (t.buffer b).region = (s.buffer b).region
  holds : ∀ h ∈ t.pool.holds, h ∈ s.pool.holds ∨ h.holdTime = s.timebase
  timebase : t.timebase = s.timebase

namespace State.Serves

variable {s t u : State} {p : Port}

protected theorem refl (s : State) : s.Serves s :=
  ⟨.refl s, fun _ => List.prefix_rfl, fun _ n => ⟨n, rfl⟩, fun _ m => .inl m, rfl⟩

protected theorem trans (h : s.Serves t) (k : t.Serves u) : s.Serves u where
  requests := h.requests.trans k.requests
  outcomes q := (h.outcomes q).trans (k.outcomes q)
  busy b n := ⟨(k.busy b (h.busy b n).1).1, (k.busy b (h.busy b n).1).2.trans (h.busy b n).2⟩
  holds g m := (k.holds g m).elim (h.holds g) fun e => .inr (e.trans h.timebase)
  timebase := k.timebase.trans h.timebase

theorem foldl {α : Type} {g : State → α → State} (hg : ∀ (s : State) (x : α), s.Serves (g s x)) (l : List α) (s : State) :
    s.Serves (l.foldl g s) := by
  induction l generalizing s with
  | nil => exact .refl s
  | cons x l ih => exact (hg s x).trans (ih _)

/-- What leaves the ports, and each update's state, region and the hold list. -/
theorem of_updates (k : s.KeepsUpdates t) {fs : List Field} (w : s.Writes fs t) (n : Field.ports ∉ fs := by decide)
    (l : Field.timebase ∉ fs := by decide) : s.Serves t where
  requests := .of_writes w n
  outcomes q := by rw [State.port_congr (w.ports n)]
  busy b m := ⟨by rwa [k.state], k.region b⟩
  holds g m := .inl (k.holds ▸ m)
  timebase := w.timebase l

theorem of_writes {fs : List Field} (w : s.Writes fs t) (n : Field.ports ∉ fs := by decide) (m : Field.pool ∉ fs := by decide)
    (l : Field.timebase ∉ fs := by decide) : s.Serves t := of_updates (.of_writes w m) w n l

/-- What writes the pool alone, and the captures. -/
theorem of_pool (w : s.Writes [.pool, .captures] t)
    (busy : ∀ b, (s.buffer b).state ≠ .free → (t.buffer b).state ≠ .free ∧ (t.buffer b).region = (s.buffer b).region)
    (holds : ∀ h ∈ t.pool.holds, h ∈ s.pool.holds) : s.Serves t where
  requests := .of_writes w
  outcomes q := by rw [State.port_congr w.ports]
  busy := busy
  holds g m := .inl (holds g m)
  timebase := w.timebase

/-- The router's work on a port changes, with no outcome lost. -/
theorem setService (s : State) (p : Port) {v : Service} (h : (s.port p).service.outcomes <+: v.outcomes) :
    s.Serves (s.setService p v) where
  requests := s.setService_keepsRequests p v
  outcomes q := by
    by_cases e : q = p
    · subst e
      exact (s.setPort_port_same q _).symm ▸ h
    · exact (s.setPort_port_other _ e).symm ▸ List.prefix_rfl
  busy _ n := ⟨n, rfl⟩
  holds _ m := .inl m
  timebase := rfl

end State.Serves

section
variable (s : State) (p : Port)

/-! ### The parts of a router's move -/

theorem State.finishPiece_serves (n : Nat) (st : Status) (ws : List Word) : s.Serves (s.finishPiece p n st ws) :=
  .setService s p (List.prefix_append ..)

theorem State.awaitPiece_serves (n : Nat) (x : Option Spot) (w : Wait) : s.Serves (s.awaitPiece p n x w) :=
  .setService s p List.prefix_rfl

theorem State.plainPiece_serves (r : Request) (k n : Nat) (x : Option Spot) : s.Serves (s.plainPiece p r k n x) :=
  (State.Serves.of_writes (s.setPlainRequest_writes ..)).trans (State.awaitPiece_serves ..)

theorem State.foreignWrite_serves (x : Spot) (n : Nat) : s.Serves (s.foreignWrite p x n) :=
  (State.Serves.of_writes (s.post_writes ..)).trans (State.finishPiece_serves ..)

theorem State.closeBuffer_serves {b : BufId} : s.Serves (s.closeBuffer b) := by
  refine .of_pool (s.closeBuffer_writes b) (fun c n => ?_) fun _ m => m
  rw [s.closeBuffer_buffer]
  split
  · next e => exact ⟨nofun, by rw [e]⟩
  · exact ⟨n, rfl⟩

theorem State.stageIn_serves {b : BufId} (used : (s.buffer b).state ≠ .free) (x : Spot) (ws : List WriteWord) :
    s.Serves (s.stageIn b x ws) :=
  .of_pool ((s.stageIn_writes b x ws).mono) (fun c n => State.stageIn_busy used c n) fun g m => by rwa [s.stageIn_holds] at m

theorem State.openUpdate_serves (x : Spot) (ws : List WriteWord) : s.Serves (s.openUpdate p x ws) := by
  cases h : s.freeBuffer with
  | none =>
    unfold State.openUpdate
    rw [h]
    exact .refl s
  | some b =>
    rw [State.openUpdate_eq h]
    have opened : s.Serves (s.openBuffer p x b) :=
      .of_pool (s.openBuffer_writes p x b).mono (State.openBuffer_busy (s.freeBuffer_eq_some h) x) fun _ m => m
    refine opened.trans (State.stageIn_serves _ ?_ x ws)
    rw [State.openBuffer_gatherings]
    exact nofun

theorem State.examineHold_serves (h : HeldWrite) : s.Serves (s.examineHold h) := by
  unfold State.examineHold
  split
  · have left : s.Serves (s.setPool { s.pool with holds := s.pool.holds.erase h }) :=
      .of_pool (s.setPool_writes _).mono (fun _ n => ⟨n, rfl⟩) fun _ m => List.mem_of_mem_erase m
    exact (left.trans (State.openUpdate_serves ..)).trans (State.finishPiece_serves ..)
  · exact .refl s

theorem State.examineHolds_serves : s.Serves s.examineHolds := .foldl (fun s h => s.examineHold_serves h) _ s

theorem State.examineIf_serves (left : Bool) : s.Serves (s.examineIf left) := by
  unfold State.examineIf
  split
  · exact s.examineHolds_serves
  · exact .refl s

theorem State.earlyClose_serves : s.Serves (s.earlyClose p) := by
  unfold State.earlyClose
  split
  · exact .refl s
  · exact s.closeBuffer_serves

theorem State.holdPiece_serves (x : Spot) (ws : List WriteWord) : s.Serves (s.holdPiece p x ws) := by
  have held : s.Serves (s.setPool { s.pool with holds := s.pool.holds ++ [⟨p, x, ws, s.timebase⟩] }) :=
    ⟨.of_ports rfl, fun _ => List.prefix_rfl, fun _ n => ⟨n, rfl⟩,
      fun g m => (List.mem_append.1 m).imp id fun e => by rw [List.mem_singleton.1 e], rfl⟩
  exact held.trans (State.awaitPiece_serves ..)

theorem State.exhausted_serves (x : Spot) (a : Word) (ws : List WriteWord) : s.Serves (s.exhausted p x a ws) := by
  have posted := State.Serves.of_writes (s.postExhausted_writes p x)
  rw [s.exhausted_eq]
  split
  · exact ((posted.trans (.of_updates (State.tearThrough_keepsUpdates ..) (State.tearThrough_writes ..))).trans
      (.of_writes (State.setPlainRequest_writes ..))).trans (State.awaitPiece_serves ..)
  · exact posted.trans (State.finishPiece_serves ..)
  · exact ((posted.trans (State.earlyClose_serves ..)).trans (State.holdPiece_serves ..)).trans (State.examineHolds_serves _)

theorem State.stagePiece_serves (x : Spot) (a : Word) (ws : List WriteWord) : s.Serves (s.stagePiece p x a ws) := by
  unfold State.stagePiece
  dsimp only
  split
  · exact s.finishPiece_serves ..
  · split
    · next b h =>
      have used : (s.buffer b).state ≠ .free := by rw [(s.gatheringOf_eq_some h).1]; exact nofun
      exact ((s.stageIn_serves used ..).trans (State.finishPiece_serves ..)).trans (State.examineIf_serves ..)
    · split
      · exact ((s.openUpdate_serves ..).trans (State.finishPiece_serves ..)).trans (State.examineIf_serves ..)
      · exact s.exhausted_serves ..

theorem State.answerFromView_serves (v : ViewIx) (x : Spot) (n : Nat) : s.Serves (s.answerFromView p v x n) := by
  rw [s.answerFromView_eq]
  exact (State.Serves.of_updates (s.usedView_keepsUpdates ..) (s.usedView_writes ..)).trans (State.finishPiece_serves ..)

theorem State.serveFromView_serves (v : ViewIx) (x : Spot) (n : Nat) : s.Serves (s.serveFromView p v x n) := by
  unfold State.serveFromView
  split
  · exact s.answerFromView_serves ..
  · exact s.awaitPiece_serves ..

theorem State.viewPiece_serves (x : Spot) (n : Nat) : s.Serves (s.viewPiece p x n) := by
  unfold State.viewPiece
  split
  · exact s.serveFromView_serves ..
  · split
    · exact s.awaitPiece_serves ..
    · exact ((State.Serves.of_updates (s.releaseView_keepsUpdates ..) (s.releaseView_writes ..)).trans
        (.of_writes (State.openView_writes ..))).trans (State.serveFromView_serves ..)

theorem State.readOwn_serves (x : Spot) (n : Nat) (a : Word) : s.Serves (s.readOwn p x n a) := by
  unfold State.readOwn
  dsimp only
  split
  · exact s.finishPiece_serves ..
  · exact (State.Serves.of_writes (s.setPlainRequest_writes ..)).trans (State.awaitPiece_serves ..)

theorem State.handPiece_serves (r : Request) (k n : Nat) (x : Option Spot) : s.Serves (s.handPiece p r k n x) := by
  unfold State.handPiece
  split
  · exact s.plainPiece_serves ..
  · dsimp only
    split
    · split
      · exact s.readOwn_serves ..
      · exact s.stagePiece_serves ..
    · split
      · split
        · exact s.viewPiece_serves ..
        · exact s.plainPiece_serves ..
      · exact s.foreignWrite_serves ..

/-- A move of a router answers the head of its queue, or answers nothing and serves it on. -/
theorem State.advance_serves :
    (∃ r rest, (s.port p).queue = r :: rest ∧ r.beats ≤ (s.port p).service.next ∧ s.advance p = s.respond p r rest) ∨
      s.Serves (s.advance p) := by
  unfold State.advance
  split
  · exact .inr (.refl s)
  · next r rest queue =>
    dsimp only
    split
    · next whole => exact .inl ⟨r, rest, queue, whole, rfl⟩
    · split
      · exact .inr (s.finishPiece_serves ..)
      · exact .inr (s.handPiece_serves ..)

end

/-! ### The routers' work as a whole -/

/-- The routers' moves, one after another: a free choice among them, a move, or another. -/
inductive Moves : State → State → Prop
  | refl (s : State) : Moves s s
  | choose {s t : State} (n : Nat) : Moves (s.setChoices n) t → Moves s t
  | move {s t : State} (p : Port) : s.canAdvance p = true → Moves (s.advance p) t → Moves s t

theorem runRouters_moves (n : Nat) (s : State) : Moves s (runRouters n s) := by
  induction n generalizing s with
  | zero => exact .refl s
  | succ n ih =>
    unfold runRouters
    split
    · exact .refl s
    · next p e =>
      have can : p ∈ s.movable := by rw [e]; exact List.mem_cons_self
      exact .move p (List.mem_filter.1 can).2 (ih _)
    · next p q ps e =>
      show Moves s (runRouters n ((s.setChoices (s.choices + 1)).advance
        ((p :: q :: ps).getD (Config.freeChoice s.choices % (p :: q :: ps).length) p)))
      exact .choose (s.choices + 1) (.move _ (s.chosen_movable e _) (ih _))

theorem State.route_moves (s : State) : Moves s s.route := runRouters_moves ..

/-- What every move keeps, the routers keep. -/
theorem Moves.keeps {P : State → Prop} (choose : ∀ s n, P s → P (s.setChoices n))
    (serve : ∀ s p, s.canAdvance p = true → P s → P (s.advance p)) {s t : State} (m : Moves s t) (h : P s) : P t := by
  induction m with
  | refl s => exact h
  | choose n m ih => exact ih (choose _ n h)
  | move p can m ih => exact ih (serve _ p can h)

/-- The routers leave the fields that are none of theirs. -/
theorem Moves.outside {s t : State} (m : Moves s t) : s.OutsideRouters t := by
  induction m with
  | refl s => exact .refl s
  | choose n m ih => exact State.OutsideRouters.trans (State.setChoices_outside _ n) ih
  | move p can m ih => exact State.OutsideRouters.trans (State.advance_outside _ p) ih

/-- A long command that waits goes on waiting while the routers move: they free no buffer. -/
theorem State.Awaits.moves {s t : State} (h : s.Awaits) (m : Moves s t) : t.Awaits := by
  refine m.keeps (P := State.Awaits) (fun s n h => h.of_pool rfl rfl rfl) (fun s p _ h => ?_) h
  have outside := s.advance_outside p
  obtain ⟨r, rest, -, -, e⟩ | serves := s.advance_serves p
  · rw [e]
    exact h.setPort p _
  · exact h.carry outside.link outside.regions serves.busy

/-- With a long command waiting, or none, a step ends with the routers' moves. -/
theorem State.Awaits.settle {s : State} (h : s.Awaits) : s.settle = s.route :=
  State.completeLong_eq_self.2 (h.moves s.route_moves)

theorem State.Awaits.settle_moves {s : State} (h : s.Awaits) : Moves s s.settle := h.settle ▸ s.route_moves

end Sys2Proof.Machine

/-! SUPPORT. The reference's period (07 R121, R122; 01 R8): an ACTIVATE in execution through the timers of a microsecond, the entry a
tick fills, and the tick with one timer due. -/

namespace Sys2Proof.Machine

section
variable {s : State} {r : RegionId} {n : Nat}

/-! ### ACTIVATE in execution -/

/-- The entry is filled, and the range has more (01 R8). -/
theorem State.fillEntry_more (h : s.link.state = .executing (.activate r n)) (lt : n + 1 < (s.definition r).recordCount) :
    s.fillEntry = s.filled r n := by
  have awaits : (s.filled r n).Awaits := by
    refine ⟨fun q m e => ?_, fun _ _ _ _ e => ?_, fun _ _ _ e => ?_, fun _ _ _ _ _ _ e => ?_⟩ <;> cases e
    exact lt
  have filled : s.fillEntry = (s.filled r n).completeLong := by
    unfold State.fillEntry
    rw [h]
    rfl
  rw [filled, State.completeLong_eq_self.2 awaits]

/-- The last entry is filled: the region goes to ACTIVE, and ACTIVATE completes (01 R8). -/
theorem State.fillEntry_last (h : s.link.state = .executing (.activate r n)) (le : (s.definition r).recordCount ≤ n + 1) :
    s.fillEntry = ((s.filled r n).setRegionState r .active).formResult .done [] := by
  have filled : s.fillEntry = (s.filled r n).completeLong := by
    unfold State.fillEntry
    rw [h]
    rfl
  rw [filled]
  show (if (s.definition r).recordCount ≤ n + 1 then ((s.filled r n).setRegionState r .active).formResult .done []
    else s.filled r n) = _
  rw [if_pos le]

theorem State.fillEntry_none (h : ∀ r n, s.link.state ≠ .executing (.activate r n)) : s.fillEntry = s := by
  obtain ⟨r, n, e, -⟩ | ⟨-, e⟩ := s.fillEntry_cases
  · exact absurd e (h r n)
  · exact e

/-- An ACTIVATE with entries to fill goes on through whatever happens in the course of a step. -/
theorem Quiet.activating {t : State} (q : Quiet s t)
    (h : s.link.state = .executing (.activate r n) ∧ n < (s.definition r).recordCount) :
    t.link.state = .executing (.activate r n) ∧ n < (t.definition r).recordCount := by
  obtain k | rfl := q.rests
  · refine ⟨LinkState.work_activate.1 (k.work.trans (LinkState.work_activate.2 h.1)), ?_⟩
    rw [State.definition_congr k.regions]
    exact h.2
  · have waits : s.completeLong = s := by
      unfold State.completeLong
      simp only [h.1, if_neg (Nat.not_le.2 h.2)]
    rw [waits]
    exact h

theorem State.expireDue_activating (h : s.link.state = .executing (.activate r n)) (lt : n < (s.definition r).recordCount) :
    s.expireDue.link.state = .executing (.activate r n) ∧ s.expireDue.definition r = s.definition r :=
  ⟨(s.expireDue_quiets.keeps (fun _ _ q k => q.activating k) ⟨h, lt⟩).1, s.expireDue_quiets.keepsActivate.definition r⟩

/-! ### The tick -/

theorem exec_tick (s : State) : exec .timebaseTick s = .next s.tick := rfl

theorem State.tick_eq (line : s.hardResetLine = false) :
    s.tick = (s.expireDue.setTimebase (s.timebase + 1)).fillEntry := by
  unfold State.tick
  rw [if_neg (by rw [line]; exact Bool.false_ne_true)]
  dsimp only
  rw [s.expireDue_quiets.writes.timebase]

theorem State.tick_timebase (line : s.hardResetLine = false) : s.tick.timebase = s.timebase + 1 := by
  rw [State.tick_eq line, (State.fillEntry_writes _).timebase]
  rfl

/-- With no timer due, however many may still expire, none does. -/
theorem runTimers_idle (n : Nat) (h : ∀ x, ¬ s.Due x) : runTimers n s = s := by
  have none : s.dueTimers = [] := List.eq_nil_iff_forall_not_mem.2 fun x m => h x (.of_timerDue ((s.mem_dueTimers x).1 m))
  cases n with
  | zero => rfl
  | succ n =>
    unfold runTimers
    rw [none]

theorem allTimers_nodup : allTimers.Nodup := by decide

/-- One timer alone is due. -/
theorem State.dueTimers_only {x : Timer} (lawful : s.PortsLawful) (due : s.Due x) (only : ∀ y, s.Due y → y = x) :
    s.dueTimers = [x] := by
  have mine : x ∈ s.dueTimers := (s.mem_dueTimers x).2 (due.timerDue lawful)
  have all : ∀ y ∈ s.dueTimers, y = x := fun y m => only y (.of_timerDue ((s.mem_dueTimers y).1 m))
  have once : s.dueTimers.Nodup := allTimers_nodup.filter _
  cases l : s.dueTimers with
  | nil =>
    rw [l] at mine
    cases mine
  | cons a rest =>
    cases rest with
    | nil => rw [all a (l ▸ List.mem_cons_self)]
    | cons b rest =>
      have same : a = b := (all a (l ▸ List.mem_cons_self)).trans (all b (l ▸ List.mem_cons_of_mem _ List.mem_cons_self)).symm
      rw [l, same] at once
      exact absurd List.mem_cons_self (List.nodup_cons.1 once).1

theorem exec_rowOfTimer (x : Timer) (s : State) : exec (rowOfTimer x) s = .next (s.expireIfDue x) := by cases x <;> rfl

theorem State.expire_writes (x : Timer) (due : s.timerDue x = true) : s.Writes stepped (s.expire x) := by
  rw [s.expire_eq]
  have quiets : Quiets s (s.expires x).settle :=
    (s.expires_quiet x due).to_reflTransGen.trans (State.settle_quiets _)
  exact quiets.writes

/-- The microsecond ends with its one due timer's expiry, where that leaves none due. -/
theorem State.expireDue_only {x : Timer} (lawful : s.PortsLawful) (due : s.Due x) (only : ∀ y, s.Due y → y = x)
    (done : ∀ y, ¬ (s.expire x).Due y) : s.expireDue = s.expire x := by
  have fuel : allTimers.length = 31 + 1 := by decide
  unfold State.expireDue
  rw [fuel]
  unfold runTimers
  rw [State.dueTimers_only lawful due only]
  exact runTimers_idle 31 done

theorem State.executes_activate (h : s.link.state = .executing (.activate r n)) : s.executes .activate = true := by
  unfold State.executes
  rw [h]
  rfl

theorem exec_activateComplete (s : State) : exec (.activateComplete .tick) s =
    .next (if s.executes .activate && !s.tick.executes .activate then s.tick else s) := rfl

/-- ACTIVATE's tick is the tick that fills its last entry (01 R8; log 5). -/
theorem State.tick_last (line : s.hardResetLine = false) (h : s.link.state = .executing (.activate r n))
    (last : n + 1 = (s.definition r).recordCount) :
    s.tick.region r = ⟨.active, s.definition r⟩ ∧ s.tick.link.state = .result (resultBytes .done []) 0 := by
  obtain ⟨link, defn⟩ := State.expireDue_activating h (by omega)
  have le : (s.expireDue.definition r).recordCount ≤ n + 1 := by rw [defn]; omega
  rw [State.tick_eq line, State.fillEntry_last (s := s.expireDue.setTimebase (s.timebase + 1)) link le]
  refine ⟨?_, rfl⟩
  rw [← defn]
  exact State.setRegion_region_same ..

end

/-- Settles O6: with no timer due the tick's own work is the timebase and the entry it fills; one due timer's expiry is the first thing
the tick does; and ACTIVATE's link state and count pass through the timers, so its completion falls in the tick of the last entry. -/
theorem theReferenceTicksAndFills : Obligations.TheReferenceTicksAndFills := by
  unfold Obligations.TheReferenceTicksAndFills
  refine ⟨fun s line idle => ⟨fun none => ?_, fun r n h => ⟨fun more => ?_, fun last => ?_⟩⟩,
    fun s u x line lawful due only row done => ?_, fun s line => ⟨_, exec_tick s, State.tick_timebase line⟩,
    fun s r n line h => ⟨fun last => ?_, fun more => ?_⟩⟩
  · rw [exec_tick, s.tick_idle line idle, State.fillEntry_none (s := s.setTimebase (s.timebase + 1)) none]
  · rw [exec_tick, s.tick_idle line idle, State.fillEntry_more (s := s.setTimebase (s.timebase + 1)) h more]
    rfl
  · rw [exec_tick, s.tick_idle line idle, State.fillEntry_last (s := s.setTimebase (s.timebase + 1)) h (le_of_eq last.symm)]
    rfl
  · have expired : u = s.expire x := by
      rw [exec_rowOfTimer, s.expireIfDue_due lawful x due] at row
      exact (Host.Outcome.next.inj row).symm
    subst expired
    have writes := State.expire_writes x (due.timerDue lawful)
    rw [exec_tick, exec_tick, State.tick_eq line, State.expireDue_only lawful due only done,
      (s.expire x).tick_idle (writes.line.trans line) done, writes.timebase]
  · obtain ⟨region, link⟩ := State.tick_last line h last
    have row : exec (.activateComplete .tick) s = .next s.tick := by
      have over' : s.tick.executes .activate = false := by
        unfold State.executes
        rw [link]
      rw [exec_activateComplete, State.executes_activate h, over']
      rfl
    exact ⟨row.trans (exec_tick s).symm, s.tick, row, region, link, State.tick_timebase line⟩
  · obtain ⟨link, defn⟩ := State.expireDue_activating h (by omega)
    have goes : s.tick.executes .activate = true := by
      rw [State.tick_eq line, State.fillEntry_more (s := s.expireDue.setTimebase (s.timebase + 1)) link (by rw [← defn] at more; exact more)]
      rfl
    rw [exec_activateComplete, goes, Bool.not_true, Bool.and_false]
    rfl

end Sys2Proof.Machine

/-! SUPPORT. What follows a piece's outcome in the same step (02 R26, R37): the response when the piece was its request's last, the
outcomes that go on otherwise; and the rows of the hold limit, the update limit and a view's lifetime (03 R57, R59, R60; 05 R100). -/

namespace Sys2Proof.Machine

section
variable {s t u v : State} {p q : Port} {r : Request} {rest : List Request}

/-! ### The highest outcome (02 R37) -/

theorem rank_le_worse (a b : Status) : a.rank ≤ (a.worse b).rank ∧ b.rank ≤ (a.worse b).rank := by
  cases a <;> cases b <;> decide

theorem rank_le_worst {x : Status} {l : List Status} (h : x ∈ l) : x.rank ≤ (worst l).rank := by
  have fold : ∀ (l : List Status) (a : Status), a.rank ≤ (l.foldl Status.worse a).rank ∧
      ∀ y ∈ l, y.rank ≤ (l.foldl Status.worse a).rank := by
    intro l
    induction l with
    | nil => exact fun a => ⟨le_rfl, fun _ m => nomatch m⟩
    | cons b l ih =>
      intro a
      obtain ⟨base, all⟩ := ih (a.worse b)
      refine ⟨(rank_le_worse a b).1.trans base, fun y m => ?_⟩
      obtain rfl | m := List.mem_cons.1 m
      · exact (rank_le_worse a y).2.trans base
      · exact all y m
  exact (fold l .okay).2 x h

theorem worst_of_fault {l : List Status} (h : Status.fault ∈ l) : worst l = .fault := by
  have le := rank_le_worst h
  revert le
  cases worst l <;> decide

theorem worst_of_refused {l : List Status} (h : Status.refused ∈ l) : worst l = .refused ∨ worst l = .fault := by
  have le := rank_le_worst h
  revert le
  cases worst l <;> decide

/-! ### The routers go on from one port's piece -/

/-- With one router able to move, its move comes first. -/
theorem Moves.route_first (queue : (u.port p).queue = r :: rest) (can : u.canAdvance p = true)
    (others : ∀ q, q ≠ p → u.canAdvance q = false) : Moves (u.advance p) u.route := by
  have work := State.work_le (s := u) (p := p) (r := r) (by rw [queue]; exact List.mem_cons_self)
  unfold State.route
  obtain ⟨n, e⟩ : ∃ n, u.workLeft = n + 1 := ⟨u.workLeft - 1, by omega⟩
  rw [e]
  unfold runRouters
  rw [State.movable_only can others]
  exact runRouters_moves ..

theorem Moves.first (awaits : u.Awaits) (queue : (u.port p).queue = r :: rest) (can : u.canAdvance p = true)
    (others : ∀ q, q ≠ p → u.canAdvance q = false) : Moves (u.advance p) u.settle := by
  rw [awaits.settle]
  exact Moves.route_first queue can others

/-- A request with every word in a finished piece is answered first (02 R37). -/
theorem Moves.responds (awaits : u.Awaits) (queue : (u.port p).queue = r :: rest) (piece : (u.port p).service.piece = none)
    (done : r.beats ≤ (u.port p).service.next) (others : ∀ q, q ≠ p → u.canAdvance q = false) :
    Moves (u.respond p r rest) u.settle :=
  State.advance_responds queue done ▸ Moves.first awaits queue (State.canAdvance_ready queue piece) others

/-- Where the answered request was the port's only one, the step ends there. -/
theorem State.settle_responds (awaits : u.Awaits) (queue : (u.port p).queue = [r]) (piece : (u.port p).service.piece = none)
    (done : r.beats ≤ (u.port p).service.next) (others : ∀ q, q ≠ p → u.canAdvance q = false) :
    u.settle = u.respond p r [] := by
  have last : State.Turns p 0 (u.advance p) (u.respond p r []) := by
    rw [State.advance_responds queue done]
    refine .still (State.movable_eq_nil.2 fun q => ?_)
    by_cases e : q = p
    · subst e
      exact State.canAdvance_empty (by rw [u.respond_port])
    · exact (State.canAdvance_congr (u.setPort_port_other _ e) rfl).trans (others q e)
  exact (State.Turns.move (State.movable_only (State.canAdvance_ready queue piece) others) last).settle (by decide)
    (by rw [queue]; exact List.mem_cons_self) (awaits.setPort p _)

theorem Moves.grows (m : Moves u t) (p : Port) : (u.port p).responses <+: (t.port p).responses :=
  m.keeps (P := fun v => (u.port p).responses <+: (v.port p).responses)
    (fun _ _ h => h) (fun v _ can h => h.trans ((State.AnswersRequests.quiet (.advance v _ can)).grows p)) List.prefix_rfl

/-- A move answers the request in service with its outcomes, or leaves it its outcomes so far. -/
theorem Moves.outcomes (m : Moves u t) (queue : (u.port p).queue = r :: rest) :
    ((t.port p).queue = (u.port p).queue ∧ (t.port p).responses = (u.port p).responses ∧
      (u.port p).service.outcomes <+: (t.port p).service.outcomes) ∨
    ∃ (x : Response) (more : List Response) (l : List Status), (t.port p).responses = (u.port p).responses ++ x :: more ∧
      x.status = worst l ∧ (u.port p).service.outcomes <+: l := by
  refine m.keeps (P := fun v => ((v.port p).queue = (u.port p).queue ∧ (v.port p).responses = (u.port p).responses ∧
      (u.port p).service.outcomes <+: (v.port p).service.outcomes) ∨
    ∃ (x : Response) (more : List Response) (l : List Status), (v.port p).responses = (u.port p).responses ++ x :: more ∧
      x.status = worst l ∧ (u.port p).service.outcomes <+: l) (fun _ _ h => h) (fun v q can h => ?_)
    (.inl ⟨rfl, rfl, List.prefix_rfl⟩)
  obtain ⟨same, none, so⟩ | ⟨x, more, l, responses, worse, so⟩ := h
  · obtain ⟨r', rest', queue', -, e⟩ | serves := v.advance_serves q
    · rw [e]
      by_cases eq : q = p
      · subst eq
        refine .inr ⟨responseOf r' (v.port q).service, [], _, ?_, rfl, so⟩
        rw [v.respond_port, ← none]
      · exact .inl (by rw [State.respond, v.setPort_port_other _ (Ne.symm eq)]; exact ⟨same, none, so⟩)
    · exact .inl ⟨(serves.requests.queue p).trans same, (serves.requests.responses p).trans none, so.trans (serves.outcomes p)⟩
  · obtain ⟨tail, grown⟩ := (State.AnswersRequests.quiet (.advance v q can)).grows p
    exact .inr ⟨x, more ++ tail, l, by rw [← grown, responses, List.append_assoc, List.cons_append], worse, so⟩

/-- Held writes that the routers' moves add are held now (03, 3.5.1). -/
theorem Moves.not_held {h : HeldWrite} (m : Moves u t) (out : h ∉ u.pool.holds) (old : h.holdTime ≠ u.timebase) :
    h ∉ t.pool.holds := by
  refine (m.keeps (P := fun v => h ∉ v.pool.holds ∧ v.timebase = u.timebase) (fun _ _ k => k) (fun v q _ k => ?_) ⟨out, rfl⟩).1
  obtain ⟨r', rest', -, -, e⟩ | serves := v.advance_serves q
  · rw [e]
    exact k
  · exact ⟨fun m => (serves.holds h m).elim k.1 fun e => old (e.trans k.2), serves.timebase.trans k.2⟩

theorem Moves.posts (m : Moves u t) : u.Posts t := by
  induction m with
  | refl u => exact .refl u
  | choose n _ ih => exact (State.Posts.of_writes (State.setChoices_writes _ n)).trans ih
  | move p _ _ ih => exact (State.advance_posts _ p).trans ih

theorem State.Posts.queue_prefix (h : s.Posts t) : s.events.queue <+: t.events.queue :=
  h.posted.keeps (Q := fun e => s.events.queue <+: e.queue) (fun _ _ _ _ _ _ _ k => k.trans (EventUnit.post_queue_prefix ..))
    List.prefix_rfl

/-- The ports other than one whose piece has its outcome stay at rest. -/
theorem State.AtRest.finishPiece_others (rest : s.AtRest) (ports : u.ports = s.ports) (views : u.views = s.views) (n : Nat)
    (st : Status) (ws : List Word) (ne : q ≠ p) : (u.finishPiece p n st ws).canAdvance q = false := by
  refine (State.canAdvance_congr (s := s) ?_ (congrArg (fun x => x.get q) views)).trans (rest.still q)
  exact (u.setPort_port_other _ ne).trans (State.port_congr ports q)

end

/-! ### The hold limit (03 R57) -/

section
variable {s : State} {p : Port} {h : HeldWrite}

theorem State.PortsLawful.hold_unique (lawful : s.PortsLawful) {g : HeldWrite} (mem : h ∈ s.pool.holds) (mem' : g ∈ s.pool.holds)
    (same : g.port = h.port) : g = h := by
  have e := lawful.heldOf mem'
  rw [same, lawful.heldOf mem] at e
  exact (Option.some.inj e).symm

theorem exec_holdLimit_idle (none : ∀ h ∈ s.pool.holds, h.port = p → (s.timebase - h.holdTime).toNat ≠ 500) :
    exec (.holdLimit p) s = .next s := by
  show Host.Outcome.next (s.expireIfDue (.hold p)) = _
  rw [s.expireIfDue_idle (.hold p) fun ⟨g, m, port, due⟩ => none g m port due]

theorem exec_holdLimit_due (lawful : s.PortsLawful) (mem : h ∈ s.pool.holds)
    (due : (s.timebase - h.holdTime).toNat = 500) : exec (.holdLimit h.port) s = .next (s.refuseHold .holdLimit h).settle := by
  show Host.Outcome.next (s.expireIfDue (.hold h.port)) = _
  rw [s.expireIfDue_due lawful (.hold h.port) ⟨h, mem, rfl, due⟩]
  show Host.Outcome.next (s.limitHold h.port).settle = _
  unfold State.limitHold
  rw [lawful.heldOf mem]

/-- The event unit after the hold limit's WRITE_REFUSED. -/
def State.limitEvents (s : State) (h : HeldWrite) : EventUnit :=
  s.events.post s.timebase (.writeRefused .holdLimit) h.spot.region h.port h.spot.record (s.version h.spot.region h.spot.record)

theorem State.refuseHold_eq (s : State) (h : HeldWrite) : s.refuseHold .holdLimit h =
    ((s.setPool { s.pool with holds := s.pool.holds.erase h }).setEvents (s.limitEvents h)).finishPiece h.port h.words.length
      .refused [] := rfl

theorem State.AtRest.refuseHold_others (rest : s.AtRest) (h : HeldWrite) {q : Port} (ne : q ≠ h.port) :
    (s.refuseHold .holdLimit h).canAdvance q = false := by
  rw [s.refuseHold_eq]
  exact rest.finishPiece_others (u := (s.setPool _).setEvents _) rfl rfl _ _ _ ne

theorem State.AtRest.refuseHold_awaits (rest : s.AtRest) (h : HeldWrite) : (s.refuseHold .holdLimit h).Awaits :=
  rest.awaits.carry rfl rfl fun _ n => ⟨n, rfl⟩

theorem State.refuseHold_port (s : State) (h : HeldWrite) : (s.refuseHold .holdLimit h).port h.port = { s.port h.port with
    service := { next := (s.port h.port).service.next + h.words.length
                 outcomes := (s.port h.port).service.outcomes ++ [.refused]
                 words := (s.port h.port).service.words
                 piece := none } } := by
  rw [s.refuseHold_eq, State.finishPiece, State.setService, State.setPort_port_same, List.append_nil]
  rfl

end

/-- Settles O7: the held write leaves the list and its piece has the outcome REFUSED; the routers that then move neither hold it again nor
lose the event, and answer the request with an outcome no lower than REFUSED, or leave it in service. -/
theorem holdLimitRefusesTheHeldWrite : Obligations.HoldLimitRefusesTheHeldWrite := by
  unfold Obligations.HoldLimitRefusesTheHeldWrite
  intro p s rest lawful
  refine ⟨fun none => exec_holdLimit_idle fun h m port => absurd port (none h m), fun h mem port => ?_⟩
  subst port
  refine ⟨fun n => exec_holdLimit_idle fun g m port => by rwa [lawful.hold_unique mem m port], fun due => ?_⟩
  have moves := (rest.refuseHold_awaits h).settle_moves
  have row := exec_holdLimit_due lawful mem due
  have outside := moves.outside
  obtain ⟨r, l, queue, piece, -, -⟩ := lawful.piece h mem
  have queue' : ((s.refuseHold .holdLimit h).port h.port).queue = r :: l := by rw [s.refuseHold_port]; exact queue
  have old : h.holdTime ≠ s.timebase := fun e => by
    rw [e, BitVec.sub_self] at due
    cases due
  refine ⟨_, row, moves.not_held ?_ old, fun kept room => ?_, fun w only whole => ?_, ?_, outside.regions, outside.link,
    outside.timebase, outside.engine⟩
  · rw [s.refuseHold_holds]
    exact lawful.holds_nodup.not_mem_erase
  · refine List.IsPrefix.trans ?_ moves.posts.queue_prefix
    obtain ⟨-, -, appended, -⟩ := postingKeepsDropsOrLosesTheEvent s (.writeRefused .holdLimit) h.spot.region h.port h.spot.record
      (s.version h.spot.region h.spot.record)
    exact (appended kept room).1 ▸ List.prefix_rfl
  · have answered := State.settle_responds (rest.refuseHold_awaits h) (p := h.port) (r := w)
      (by rw [s.refuseHold_port]; exact only) (by rw [s.refuseHold_port])
      (by rw [s.refuseHold_port]; exact le_of_eq whole.symm) fun q ne => rest.refuseHold_others h ne
    rw [answered]
    unfold State.respond
    rw [s.refuseHold_port, s.refuseHold_eq, State.finishPiece, State.setService, State.setPort_setPort]
    rfl
  · have port := s.refuseHold_port h
    obtain ⟨same, none, so⟩ | ⟨x, more, out, responses, worse, so⟩ := moves.outcomes queue'
    · rw [port] at same none so
      exact .inl ⟨same, none, so⟩
    · rw [port] at responses so
      refine .inr ⟨x, more, responses, ?_⟩
      rw [worse]
      exact worst_of_refused (so.subset (List.mem_append_right _ List.mem_cons_self))

/-! ### The update limit and the view lifetime (03 R59, R60; 05 R100) -/

section
variable {s : State} {b : BufId} {p : Port} {v : ViewIx}

theorem exec_updateExpiry_idle (h : ¬((s.buffer b).state = .gathering ∧ (s.definition (s.buffer b).region).updateLimit ≠ 0 ∧
    (s.timebase - (s.buffer b).openingTime).toNat = (s.definition (s.buffer b).region).updateLimit)) :
    exec (.updateExpiry b) s = .next s := by
  show Host.Outcome.next (s.expireIfDue (.update b)) = _
  rw [s.expireIfDue_idle (.update b) h]

theorem exec_viewExpired_idle (h : ¬((s.view p v).state = .held ∧ (s.definition (s.view p v).region).viewLifetime ≠ 0 ∧
    (s.timebase - (s.view p v).completeTime).toNat = (s.definition (s.view p v).region).viewLifetime)) :
    exec (.viewExpired p v) s = .next s := by
  show Host.Outcome.next (s.expireIfDue (.view p v)) = _
  rw [s.expireIfDue_idle (.view p v) h]

theorem State.expireBuffer_discard (h : (s.definition (s.buffer b).region).action = .discard) : s.expireBuffer b =
    ((s.freeGathering b).post (.updateExpired .discard) (s.buffer b).region (s.buffer b).writer (s.buffer b).record
      (s.version (s.buffer b).region (s.buffer b).record)).examineHolds := by
  unfold State.expireBuffer
  dsimp only
  rw [h]

theorem State.expireBuffer_close (h : (s.definition (s.buffer b).region).action = .close) : s.expireBuffer b =
    ((s.closeBuffer b).post (.updateExpired .close) (s.buffer b).region (s.buffer b).writer (s.buffer b).record
      (s.version (s.buffer b).region (s.buffer b).record)).examineHolds := by
  unfold State.expireBuffer
  dsimp only
  rw [h]

/-- A due expiry of an update, with no held write to examine. -/
theorem exec_updateExpiry_due (g : (s.buffer b).state = .gathering)
    (limited : (s.definition (s.buffer b).region).updateLimit ≠ 0)
    (due : (s.timebase - (s.buffer b).openingTime).toNat = (s.definition (s.buffer b).region).updateLimit) {t : State}
    (ended : s.expireBuffer b = t.examineHolds) (none : t.pool.holds = []) (rest : t.AtRest) :
    exec (.updateExpiry b) s = .next t := by
  have timer : s.timerDue (.update b) = true := by
    unfold State.timerDue
    simp [g, limited, (due_iff ..).2 due]
  show Host.Outcome.next (s.expireIfDue (.update b)) = _
  unfold State.expireIfDue
  rw [if_pos timer]
  show Host.Outcome.next (s.expireBuffer b).settle = _
  rw [ended, t.examineHolds_none none, rest.settle]

/-- An update's expiry under DISCARD frees no buffer of a region in RETIRE: it is of an ACTIVE region. -/
theorem State.AtRest.freeGathering (rest : s.AtRest) (regions : s.RegionsLawful) (owned : s.UpdatesOwned)
    (g : (s.buffer b).state = .gathering) : (s.freeGathering b).AtRest := by
  refine .intro (fun q => (State.canAdvance_congr rfl rfl).trans (rest.still q)) ?_
  refine ⟨fun r n e => rest.awaits.activate r n e, fun r a c v e => ?_, fun a v w e => rest.awaits.flushPort a v w e,
    fun g c v f m k e => rest.awaits.restart g c v f m k e⟩
  obtain ⟨c, used, named⟩ := rest.awaits.retire r a c v e
  have apart : c ≠ b := fun e' => by
    have draining := regions.draining r a _ v e
    rw [← named, e', (owned.buffers b g).1] at draining
    cases draining
  exact ⟨c, by rw [s.freeGathering_buffer_other b c apart]; exact ⟨used, named⟩⟩

theorem exec_viewExpired_due (lawful : s.ViewsLawful) (rest : s.AtRest)
    (unneeded : ∀ x, (s.port p).service.piece = some x → x.wait ≠ .forView) (held : (s.view p v).state = .held)
    (limited : (s.definition (s.view p v).region).viewLifetime ≠ 0)
    (due : (s.timebase - (s.view p v).completeTime).toNat = (s.definition (s.view p v).region).viewLifetime) :
    exec (.viewExpired p v) s = .next ((s.freeView p v).post .viewExpired (s.view p v).region p (s.view p v).record
      (s.view p v).version) := by
  have timer : s.timerDue (.view p v) = true := by
    unfold State.timerDue
    simp [held, limited, (due_iff ..).2 due]
  have released : s.releaseView p v = s.freeView p v :=
    State.releaseView_unfilled (lawful.uncaptured (by rw [held]; exact nofun))
  have quiet : (s.freeView p v).AtRest := by
    refine .intro (fun q => ?_) (rest.awaits.of_pool rfl rfl rfl)
    by_cases e : q = p
    · subst e
      cases piece : (s.port q).service.piece with
      | none =>
        have still := rest.still q
        cases queue : (s.port q).queue with
        | nil => exact State.canAdvance_empty queue
        | cons r l => exact absurd (State.canAdvance_ready queue piece) (by rw [still]; exact Bool.false_ne_true)
      | some x => exact State.canAdvance_waiting (s := s.freeView q v) piece fun w => absurd w (unneeded x piece)
    · exact (State.canAdvance_congr (s := s) (t := s.freeView p v) rfl (PerPort.get_set_other _ _ e)).trans (rest.still q)
  show Host.Outcome.next (s.expireIfDue (.view p v)) = _
  unfold State.expireIfDue
  rw [if_pos timer]
  show Host.Outcome.next (s.expireView p v).settle = _
  unfold State.expireView
  dsimp only
  rw [released, (quiet.post ..).settle]

end

/-- Settles O8: an expiry frees or closes its buffer, or frees its view, posts its event, and leaves the routers and the link at rest. -/
theorem expiryEndsTheUpdateOrTheView : Obligations.ExpiryEndsTheUpdateOrTheView := by
  unfold Obligations.ExpiryEndsTheUpdateOrTheView
  refine ⟨fun b s rest regions owned none => ?_, fun p v s rest lawful unneeded => ?_⟩
  · refine ⟨exec_updateExpiry_idle, fun g limited due => ⟨fun discard => ?_, fun close => ?_⟩⟩
    · rw [exec_updateExpiry_due g limited due (State.expireBuffer_discard discard) none
        ((rest.freeGathering regions owned g).post ..), discard]
      rfl
    · rw [exec_updateExpiry_due g limited due (State.expireBuffer_close close) none
        ((rest.carry (t := s.closeBuffer b) rfl rfl rfl rfl s.closeBuffer_serves.busy).post ..), State.closeBuffer_eq rfl rfl, close]
      rfl
  · exact ⟨exec_viewExpired_idle, exec_viewExpired_due lawful rest unneeded⟩

end Sys2Proof.Machine

/-! SUPPORT. The end of the outstanding transaction, by its last answer or by the timeout (06 R113, R114, R116), and what a plain
requester's piece then comes to (02 R29, R34, R37). -/

namespace Sys2Proof.Machine

section
variable {s t u : State} {p q : Port} {r : Request} {l : List Request} {tr : Transaction} {i : Instr} {k : Cause}
  {f : List Answer → List Answer}

/-! ### The arrival that ends a transaction -/

/-- The state at the end of the outstanding transaction, before the routers move. -/
def State.ended (s : State) (tr : Transaction) (f : List Answer → List Answer) : State :=
  (s.recordAnswers tr f).endTransaction tr.requester (f tr.answers) tr.discard

theorem State.takeAnswers_ended (all : allAnswered (f tr.answers) = true) : s.takeAnswers tr f = s.ended tr f := by
  rw [s.takeAnswers_eq, if_pos all]
  rfl

theorem closeUnanswered_all (as : List Answer) : allAnswered (closeUnanswered as) = true := by
  rw [closeUnanswered_eq, allAnswered_iff, List.mem_map]
  rintro ⟨x, -, e⟩
  by_cases h : x = .unanswered
  · rw [if_pos h] at e
    cases e
  · rw [if_neg h] at e
    exact h e

/-- In its microsecond the timeout ends the transaction, whatever is left UNANSWERED (06 R114). -/
theorem State.expireIfDue_memory (out : s.mem.outstanding = some tr) (age : (s.timebase - tr.grantTime).toNat = 64) :
    s.expireIfDue .memory = (s.ended tr closeUnanswered).settle := by
  have now : due s.timebase tr.grantTime memoryTimeoutMicros = true := (due_iff ..).2 age
  have timer : s.timerDue .memory = true := by
    unfold State.timerDue
    simp only [out, now]
  unfold State.expireIfDue
  rw [if_pos timer]
  show s.memoryTimeout.settle = _
  unfold State.memoryTimeout
  simp only [out, now, if_true]
  rw [State.takeAnswers_ended (closeUnanswered_all _)]

/-- An arrival that ends the transaction ends it, in its own row and as a long command's cause. -/
theorem State.EndsBy.arrives (h : s.EndsBy tr i k f) (out : s.mem.outstanding = some tr) (all : allAnswered (f tr.answers) = true) :
    s.arrive k = (s.ended tr f).settle ∧ exec i s = .next (s.ended tr f).settle := by
  obtain ⟨a, rfl, rfl, rfl⟩ | ⟨rfl, rfl, due, rfl⟩ := h
  · have taken : s.memoryAnswer tr.tag a = s.ended tr fun as => answerFirst as (recorded tr.request a) := by
      rw [State.memoryAnswer_accepted s a out, State.takeAnswers_ended all]
    exact ⟨congrArg State.settle taken, by rw [exec_memoryAnswer, taken]⟩
  · rw [← closeUnanswered_eq]
    have expired := State.expireIfDue_memory out due
    exact ⟨expired, congrArg Host.Outcome.next expired⟩

theorem State.Ends.arrives {q : Requester} (e : s.Ends q tr (f tr.answers)) (h : s.EndsBy tr i k f) :
    s.arrive k = (s.ended tr f).settle ∧ exec i s = .next (s.ended tr f).settle := h.arrives e.outstanding e.all

/-! ### Where the answers go -/

theorem State.endTransaction_commit (s : State) {job : CommitJob} (writing : s.engine = .writing job) (as : List Answer) :
    s.endTransaction .commit as false = s.idlePort.completeCommit job := by
  unfold State.endTransaction
  dsimp only
  rw [if_neg Bool.false_ne_true, State.setMem_engine, writing]
  rfl

theorem State.ended_discard (h : tr.discard = true) : s.ended tr f = s.idlePort := by
  unfold State.ended
  rw [s.recordAnswers_discard tr f h, h]
  rfl

theorem State.ended_plain (requester : tr.requester = .plain p) (kept : tr.discard = false) :
    s.ended tr f = s.idlePort.endPlain p (f tr.answers) := by
  unfold State.ended
  rw [s.recordAnswers_plain tr f requester, requester, kept]
  rfl

theorem State.ended_commit {job : CommitJob} (requester : tr.requester = .commit) (kept : tr.discard = false)
    (writing : s.engine = .writing job) : s.ended tr f =
      (s.idlePort.setEngine (.writing { job with answers := f job.answers })).completeCommit { job with answers := f job.answers } := by
  unfold State.ended
  rw [s.recordAnswers_kept tr f kept, requester, State.handOn_commit (s.withOutstanding _) f writing, kept,
    State.endTransaction_commit _ (job := { job with answers := f job.answers }) rfl]
  congr 1

theorem State.ended_capture {c : Capture} {cs : List Capture} (requester : tr.requester = .capture) (kept : tr.discard = false)
    (front : s.captures = c :: cs) : s.ended tr f =
      (s.idlePort.setCaptures ({ c with answers := f c.answers } :: cs)).endRead := by
  unfold State.ended
  rw [s.recordAnswers_kept tr f kept, requester, State.handOn_capture (s.withOutstanding _) f front, kept]
  rfl

theorem State.ended_outstanding (s : State) (tr : Transaction) (f : List Answer → List Answer) :
    (s.ended tr f).mem.outstanding = none := by
  obtain e | ⟨p, -, -, e⟩ | ⟨job, -, -, -, e⟩ | ⟨-, -, e⟩ :=
    (s.recordAnswers tr f).endTransaction_cases tr.requester (f tr.answers) tr.discard <;> unfold State.ended <;> rw [e]
  · rfl
  · rw [(State.endPlain_writes _ ..).outstanding]
    rfl
  · rw [(State.completeCommit_writes _ _).outstanding]
    rfl
  · rw [(State.endRead_writes _).outstanding]
    rfl

/-! ### What follows (02 R26, 08 R145) -/

theorem State.settle_keeps (u : State) : u.settle.mem.outstanding = u.mem.outstanding ∧ u.settle.mem.tagCounter = u.mem.tagCounter ∧
    u.settle.mem.ring = u.mem.ring ∧ u.settle.timebase = u.timebase := by
  have outside := u.route_outside
  have long := u.route.completeLong_writes
  have ring : u.settle.mem.ring = u.route.mem.ring := (long.arbiter).1
  have tag : u.settle.mem.tagCounter = u.route.mem.tagCounter := (long.arbiter).2.1
  exact ⟨(long.outstanding).trans outside.outstanding, tag.trans outside.tagCounter, ring.trans outside.ring,
    (long.timebase).trans outside.timebase⟩

theorem State.AtRest.idlePort (h : s.AtRest) : s.idlePort.AtRest := h.carry_pool rfl rfl rfl rfl rfl

/-! ### A piece that ends (02 R28, R37) -/

theorem State.finishPiece_port_eq (u : State) (p : Port) (n : Nat) (st : Status) (ws : List Word) :
    (u.finishPiece p n st ws).port p = { u.port p with
      service := ⟨(u.port p).service.next + n, (u.port p).service.outcomes ++ [st], (u.port p).service.words ++ ws, none⟩ } :=
  State.setPort_port_same ..

/-- The outcome of its last piece answers a request before anything else moves. -/
theorem State.AtRest.pieceEnds (rest : s.AtRest) (queue : (s.port p).queue = r :: l) {n : Nat}
    (whole : (s.port p).service.next + n = r.beats) (st : Status) (ws : List Word) :
    Moves ((s.finishPiece p n st ws).respond p r l) (s.finishPiece p n st ws).settle := by
  have port := s.finishPiece_port_eq p n st ws
  exact Moves.responds (rest.awaits.setPort p _) (by rw [port]; exact queue) (by rw [port])
    (by rw [port]; exact le_of_eq whole.symm) fun q ne => rest.finishPiece_others rfl rfl n st ws ne

theorem State.finishPiece_responds (s : State) (p : Port) (r : Request) (l : List Request) (n : Nat) (st : Status) (ws : List Word) :
    (((s.finishPiece p n st ws).respond p r l).port p).responses = (s.port p).responses ++
      [⟨worst ((s.port p).service.outcomes ++ [st]), if isRead r then (s.port p).service.words ++ ws else []⟩] := by
  rw [State.respond_port, s.finishPiece_port_eq]
  rfl

/-- The end of a plain requester's transaction finishes the piece that waits for memory (02 R29, R30). -/
theorem State.endPlain_memory {x : Piece} (piece : (s.port p).service.piece = some x) (wait : x.wait = .memory)
    (queue : (s.port p).queue = r :: l) (as : List Answer) : s.endPlain p as =
      s.finishPiece p x.beats (if as.any Answer.isFault then .fault else .okay) (if isRead r then as.map Answer.word else []) := by
  unfold State.endPlain
  simp only [piece, wait, queue]

/-- The end of a plain requester's transaction finishes read-own's piece from its snapshot (02 R34). -/
theorem State.endPlain_readOwn {x : Piece} {snap : Snapshot} (piece : (s.port p).service.piece = some x)
    (wait : x.wait = .readOwn snap) (as : List Answer) :
    s.endPlain p as = s.finishPiece p x.beats (ownStatus snap as) (ownWords snap as) := by
  unfold State.endPlain
  simp only [piece, wait]

/-- The row that ends a plain requester's transaction, at its piece's outcome. -/
theorem State.Ends.finishes (e : s.Ends (.plain p) tr (f tr.answers)) (h : s.EndsBy tr i k f) {n : Nat} {st : Status}
    {ws : List Word} (ends : s.idlePort.endPlain p (f tr.answers) = s.idlePort.finishPiece p n st ws) :
    exec i s = .next (s.idlePort.finishPiece p n st ws).settle := by
  rw [(e.arrives h).2, State.ended_plain e.requester e.kept, ends]

/-- A plain requester's piece that ends with its transaction, its request's last, gives the response (02 R37). -/
theorem State.Ends.answers (rest : s.AtRest) (e : s.Ends (.plain p) tr (f tr.answers)) (h : s.EndsBy tr i k f)
    (queue : (s.port p).queue = r :: l) {n : Nat} (whole : (s.port p).service.next + n = r.beats) {st : Status} {ws : List Word}
    (ends : s.idlePort.endPlain p (f tr.answers) = s.idlePort.finishPiece p n st ws) :
    ∃ t, exec i s = .next t ∧ Moves ((s.idlePort.finishPiece p n st ws).respond p r l) t ∧ (s.port p).responses ++
      [⟨worst ((s.port p).service.outcomes ++ [st]), if isRead r then (s.port p).service.words ++ ws else []⟩] <+:
        (t.port p).responses := by
  have moves := rest.idlePort.pieceEnds (s := s.idlePort) queue whole st ws
  exact ⟨_, e.finishes h ends, moves, (s.idlePort.finishPiece_responds p r l n st ws) ▸ moves.grows p⟩

end

/-! ### The timeout (06 R114) -/

theorem closeUnanswered_word (as : List Answer) : (closeUnanswered as).map Answer.word =
    as.map (fun y => match y with | .okay w => w | .fault => 0 | .unanswered => 0) := by
  rw [closeUnanswered_eq, List.map_map]
  refine List.map_congr_left fun y _ => ?_
  cases y <;> rfl

theorem closeUnanswered_faults {as : List Answer} (h : .unanswered ∈ as) : (closeUnanswered as).any Answer.isFault = true := by
  rw [closeUnanswered_eq, List.any_map, List.any_eq_true]
  exact ⟨_, h, rfl⟩

theorem exec_memoryTimeout_idle {s : State} (h : ∀ tr, s.mem.outstanding = some tr → (s.timebase - tr.grantTime).toNat ≠ 64) :
    exec .memoryTimeout s = .next s := by
  show Host.Outcome.next (s.expireIfDue .memory) = _
  rw [s.expireIfDue_idle .memory fun ⟨tr, out, due⟩ => h tr out due]

/-- Settles O24: the timeout is the transaction's end with each UNANSWERED word FAULT, and the piece's outcome is then FAULT. -/
theorem theTimeoutEndsTheTransaction : Obligations.TheTimeoutEndsTheTransaction := by
  unfold Obligations.TheTimeoutEndsTheTransaction
  intro s rest
  refine ⟨fun none => exec_memoryTimeout_idle fun tr out => (by rw [none] at out; cases out), fun tr out => ?_⟩
  have row : (s.timebase - tr.grantTime).toNat = 64 → exec .memoryTimeout s = .next (s.ended tr closeUnanswered).settle :=
    fun due => congrArg Host.Outcome.next (State.expireIfDue_memory out due)
  refine ⟨fun n => exec_memoryTimeout_idle fun x out' => ?_, fun due => ⟨_, row due, ?_⟩, fun due discard => ?_,
    fun p x r l due kept requester open' piece wait queue whole => ?_⟩
  · rw [out] at out'
    exact Option.some.inj out' ▸ n
  · obtain ⟨outstanding, tag, ring, timebase⟩ := (s.ended tr closeUnanswered).settle_keeps
    have recorded : (s.recordAnswers tr closeUnanswered).mem.tagCounter = s.mem.tagCounter ∧
        (s.recordAnswers tr closeUnanswered).mem.ring = s.mem.ring := by rw [s.recordAnswers_mem]; exact ⟨rfl, rfl⟩
    have writes := State.endTransaction_writes (s.recordAnswers tr closeUnanswered) tr.requester (closeUnanswered tr.answers) tr.discard
    exact ⟨outstanding.trans (s.ended_outstanding ..),
      timebase.trans ((writes.timebase).trans (s.recordAnswers_writes ..).timebase),
      tag.trans ((writes.arbiter).2.1.trans recorded.1), ring.trans ((writes.arbiter).1.trans recorded.2)⟩
  · rw [row due, State.ended_discard discard, rest.idlePort.settle]
    rfl
  · have by' : s.EndsBy tr .memoryTimeout .timeout closeUnanswered := .inr ⟨rfl, rfl, due, closeUnanswered_eq⟩
    have ends : s.Ends (.plain p) tr (closeUnanswered tr.answers) := ⟨out, requester, kept, closeUnanswered_all _⟩
    obtain ⟨t, e, -, answered⟩ := ends.answers rest by' queue whole (State.endPlain_memory (s := s.idlePort) piece wait queue _)
    refine ⟨t, e, ?_⟩
    rw [closeUnanswered_faults open', if_pos rfl, worst_of_fault (List.mem_append_right _ List.mem_cons_self),
      closeUnanswered_word] at answered
    cases read : isRead r <;> rw [read] at answered <;> exact answered

/-! ### Plain transactions (02 R29, R30, R37) -/

/-- Settles O22: the piece's outcome answers the request when it was its last; otherwise the router's next move forms the piece after it,
which is refused as foreign or becomes the next transaction. -/
theorem plainTransactionsAnswerTheirPiece : Obligations.PlainTransactionsAnswerTheirPiece := by
  unfold Obligations.PlainTransactionsAnswerTheirPiece
  refine ⟨fun s p tr f i c x r l rest ends by' piece wait queue whole => ?_,
    fun s p tr f i c x r y rest ends by' piece wait queue inside => ?_⟩
  · obtain ⟨t, e, moves, answered⟩ := ends.answers rest by' queue whole (State.endPlain_memory (s := s.idlePort) piece wait queue _)
    have outside := moves.outside
    refine ⟨t, e, outside.outstanding, ?_, outside.regions, outside.timebase, outside.engine, outside.versions⟩
    cases read : isRead r <;> rw [read] at answered <;> exact answered
  · intro m outcomes more within writer
    have row := ends.finishes by' (State.endPlain_memory (s := s.idlePort) piece wait queue (f tr.answers))
    generalize hu : s.idlePort.finishPiece p x.beats (if (f tr.answers).any Answer.isFault then .fault else .okay)
      (if isRead r then (f tr.answers).map Answer.word else []) = u at row
    have port : u.port p = { s.port p with
        service := ⟨m, outcomes, (s.port p).service.words ++ if isRead r then (f tr.answers).map Answer.word else [], none⟩ } := by
      rw [← hu]
      exact State.finishPiece_port_eq ..
    have state : u = s.idlePort.setPort p (u.port p) := by
      rw [← hu, State.finishPiece_port_eq]
      rfl
    have others : ∀ q, q ≠ p → u.canAdvance q = false := fun q ne => by
      rw [← hu]
      exact rest.idlePort.finishPiece_others rfl rfl _ _ _ ne
    have awaits : u.Awaits := by
      rw [state]
      exact rest.idlePort.awaits.setPort p _
    have queue' : (u.port p).queue = [r] := by rw [port]; exact queue
    have can : u.canAdvance p = true := State.canAdvance_ready queue' (by rw [port])
    have regions : u.regions = s.regions := by rw [state]; rfl
    have next : u.NextPiece r m (r.beats - m) (some y) := (within.piece more).carry regions
    have first : u.advance p = u.handPiece p r m (r.beats - m) (some y) :=
      next.advance queue' (by rw [port]) (pastTop_eq_false inside)
    have writer' : (u.definition y.region).writer ≠ p := by rwa [State.definition_congr regions]
    refine ⟨fun write => ?_, fun read reader => ?_⟩
    · have hand := first.trans (State.handPiece_foreign m (r.beats - m) write writer')
      have after : (u.advance p).port p = { s.port p with
          service := ⟨r.beats, outcomes ++ [.refused], (s.port p).service.words, none⟩ } := by
        rw [hand, State.foreignWrite, State.finishPiece_port_eq]
        rw [State.post_eq]
        show { u.port p with service := (⟨(u.port p).service.next + (r.beats - m), (u.port p).service.outcomes ++ [Status.refused],
          (u.port p).service.words ++ [], none⟩ : Service) } = _
        rw [port, write, List.append_nil, if_neg Bool.false_ne_true, List.append_nil, Nat.add_sub_cancel' (le_of_lt more)]
      have waits : (u.advance p).Awaits := by
        rw [hand]
        exact (awaits.of_pool (t := u.post (.writeRefused .foreign) y.region p y.record (u.version y.region y.record)) rfl rfl
          rfl).setPort p _
      have still : ∀ q, q ≠ p → (u.advance p).canAdvance q = false := fun q ne => by
        rw [hand]
        exact (State.canAdvance_congr (State.setPort_port_other _ _ ne) rfl).trans (others q ne)
      have second : (u.advance p).settle = (u.advance p).respond p r [] :=
        State.settle_responds waits (by rw [after]; exact queue) (by rw [after]) (by rw [after]) still
      have settled : u.settle = (u.advance p).settle := by
        have turns : State.Turns p 2 u ((u.advance p).respond p r []) := by
          refine .move (State.movable_only can others) (.move (State.movable_only (State.canAdvance_ready
            (by rw [after]; exact queue) (by rw [after])) still) ?_)
          rw [State.advance_responds (r := r) (l := []) (by rw [after]; exact queue) (by rw [after])]
          refine .still (State.movable_eq_nil.2 fun q => ?_)
          by_cases e : q = p
          · subst e
            exact State.canAdvance_empty (by rw [State.respond_port])
          · exact (State.canAdvance_congr (State.setPort_port_other _ _ e) rfl).trans (still q e)
        rw [turns.settle (by decide) (by rw [queue']; exact List.mem_cons_self) (waits.setPort p _), second]
      rw [row, settled, second]
      unfold State.respond
      rw [after, hand, State.foreignWrite, State.finishPiece, State.setService, State.setPort_setPort]
      have version : u.version y.region y.record = s.version y.region y.record := by rw [state]; rfl
      rw [version, state]
      unfold responseOf
      rw [write]
      show Host.Outcome.next ((((s.idlePort.setPort p (u.port p)).post (.writeRefused .foreign) y.region p y.record
        (s.version y.region y.record)).setPort p _)) = _
      rw [State.post_eq, State.post_eq]
      show Host.Outcome.next (((s.idlePort.setEvents (s.events.post s.timebase (.writeRefused .foreign) y.region p y.record
        (s.version y.region y.record))).setPort p (u.port p)).setPort p _) = _
      rw [State.setPort_setPort]
      rfl
    · have hand := first.trans (State.handPiece_other m (r.beats - m) read writer' (by rwa [State.definition_congr regions]))
      have turns : State.Turns p 1 u (u.plainPiece p r m (r.beats - m) (some y)) := by
        refine .move (State.movable_only can others) ?_
        rw [hand]
        refine .still (State.movable_eq_nil.2 fun q => ?_)
        by_cases e : q = p
        · subst e
          refine State.canAdvance_waiting (x := ⟨r.beats - m, some y, .memory⟩) ?_ nofun
          exact congrArg (fun z => z.service.piece) (State.setPort_port_same ..)
        · exact (State.canAdvance_congr (State.setPort_port_other _ _ e) rfl).trans (others q e)
      rw [row, turns.settle (by decide) (by rw [queue']; exact List.mem_cons_self)
        ((awaits.of_pool (t := u.setPlainRequest p _) rfl rfl rfl).setPort p _)]
      unfold State.plainPiece State.awaitPiece State.setService
      rw [read]
      show Host.Outcome.next ((u.setPlainRequest p (some (.read (beatAddress r m) (r.beats - m)))).setPort p
        { u.port p with service := { (u.port p).service with piece := some ⟨r.beats - m, some y, .memory⟩ } }) = _
      rw [port, read, state]
      show Host.Outcome.next (((s.idlePort.setPlainRequest p (some (.read (beatAddress r m) (r.beats - m)))).setPort p
        (u.port p)).setPort p _) = _
      rw [State.setPort_setPort]
      rfl

/-! ### Read-own (02 R33, R34) -/

theorem ownWords_getElem (snap : Snapshot) (as : List Answer) {k : Nat} (h : k < (ownWords snap as).length) :
    (ownWords snap as)[k] = ownWord snap.versionWord snap.version (snap.offset + k) (snap.supplied.getD k ⟨0, 0⟩)
      (if snap.firstRead ≤ k then ((as[k - snap.firstRead]?).getD .fault).word else 0) := by
  have lt : k < snap.supplied.length := by
    unfold ownWords at h
    rwa [List.length_map, run_length] at h
  refine (List.getElem?_eq_some_iff.1 ?_).2
  unfold ownWords
  rw [List.getElem?_map, run_getElem? lt, Nat.zero_add]
  rfl

theorem ownWords_length (snap : Snapshot) (as : List Answer) : (ownWords snap as).length = snap.supplied.length := by
  unfold ownWords
  rw [List.length_map, run_length]

theorem ownStatus_eq (snap : Snapshot) (as : List Answer) :
    ownStatus snap as = if as.any Answer.isFault then .fault else if snap.torn = .torn then .torn else .okay := by
  unfold ownStatus
  rw [statusOfMark_eq]

/-- Settles O23: the piece's words are the snapshot's assembly of its supplied bytes and memory's, whatever has become of the region. -/
theorem readOwnAssemblesFromItsSnapshot : Obligations.ReadOwnAssemblesFromItsSnapshot := by
  unfold Obligations.ReadOwnAssemblesFromItsSnapshot
  intro s p tr f i c x snap r l rest ends by' piece wait queue read whole answers
  obtain ⟨t, e, -, answered⟩ := ends.answers rest by' queue whole (State.endPlain_readOwn (s := s.idlePort) piece wait _)
  rw [read, if_pos rfl, ownStatus_eq] at answered
  refine ⟨t, ownWords snap answers, e, ownWords_length .., answered, fun k h => ⟨fun v => ?_, fun v b => ?_⟩⟩
  · rw [ownWords_getElem, ownWord, if_pos v]
    rfl
  · rw [ownWords_getElem, ownWord, if_neg v, mergeWord_byte]
    split
    · rfl
    · split
      · rfl
      · simp

end Sys2Proof.Machine

/-! SUPPORT. A commit's completion (01 R17, R18; 04 R75 to R79): the record's entry and the other updates' marks, the watches examined
(07 R128, R129) and their events, and what follows with no held write to open. -/

namespace Sys2Proof.Machine

/-! ### The word a watch examines (07 R128) -/

theorem selectedBytes_getLsbD (mask : Word) (k : Fin 4) :
    (selectedBytes mask).getLsbD k.val = (mask.extractLsb' (8 * k.val) 8 != 0) := by
  have bits : ∀ (a b c d : Bool) (k : Fin 4),
      (BitVec.ofBool a ++ BitVec.ofBool b ++ BitVec.ofBool c ++ BitVec.ofBool d).getLsbD k.val = [d, c, b, a].get k := by decide
  unfold selectedBytes
  rw [bits]
  fin_cases k <;> rfl

theorem selectedWritten_iff {mask : Word} {w : WriteWord} {a : Answer} : selectedWritten mask w a = true ↔
    ∀ k : Fin 4, mask.extractLsb' (8 * k.val) 8 ≠ 0 → w.enables.getLsbD k.val = true ∧ a.isOkay = true := by
  have zero : ∀ m : Marks, m = 0 ↔ ∀ k : Fin 4, m.getLsbD k.val = false := fun m =>
    ⟨fun e k => by rw [e]; simp, fun h => BitVec.eq_of_getLsbD_eq fun i lt => by simpa using h ⟨i, lt⟩⟩
  have byte : ∀ k : Fin 4, mask.extractLsb' (8 * k.val) 8 ≠ 0 ↔ (selectedBytes mask).getLsbD k.val = true := fun k => by
    rw [selectedBytes_getLsbD, bne_iff_ne]
  unfold selectedWritten
  rw [Bool.or_eq_true, Bool.and_eq_true, beq_iff_eq, beq_iff_eq, zero, zero]
  constructor
  · rintro (none | ⟨okay, enabled⟩) k selected
    · rw [byte, none k] at selected
      cases selected
    · have clear := enabled k
      rw [BitVec.getLsbD_and, (byte k).1 selected, BitVec.getLsbD_not] at clear
      simpa [k.isLt, okay] using clear
  · intro h
    by_cases any : ∃ k : Fin 4, (selectedBytes mask).getLsbD k.val = true
    · obtain ⟨k, selected⟩ := any
      refine .inr ⟨(h k ((byte k).2 selected)).2, fun j => ?_⟩
      rw [BitVec.getLsbD_and, BitVec.getLsbD_not]
      cases chosen : (selectedBytes mask).getLsbD j.val with
      | false => rfl
      | true => simp [(h j ((byte j).2 chosen)).1]
    · exact .inl fun k => by simpa using fun e => any ⟨k, e⟩

/-- The data with which a watch matches a commit, if it does (07 R128, R129). -/
def hitData (c : Committed) (w : Watch) : Option Word := (watchedWord c w).filter w.matches

theorem watchedWord_iff {c : Committed} {w : Watch} {data : Word} : watchedWord c w = some data ↔
    (w.state = .active ∧ w.region = c.region ∧ (w.record = none ∨ w.record = some c.record) ∧ c.first ≤ w.offset) ∧
    ∃ y a, c.words[w.offset - c.first]? = some y ∧ y.data = data ∧ c.answers[w.offset - c.first]? = some a ∧
      selectedWritten w.mask y a = true := by
  unfold watchedWord
  by_cases named : w.state = .active ∧ w.region = c.region ∧ (w.record = none ∨ w.record = some c.record) ∧ c.first ≤ w.offset
  · rw [if_pos named]
    cases hy : c.words[w.offset - c.first]? with
    | none => simp
    | some y =>
      cases ha : c.answers[w.offset - c.first]? with
      | none => simp
      | some a =>
        by_cases written : selectedWritten w.mask y a = true
        · simp [named, written]
        · simp [written]
  · rw [if_neg named]
    exact ⟨nofun, fun h => absurd h.1 named⟩

/-- What a completion makes of one watch (07 R129). -/
def watchAfter (c : Committed) (w : Watch) : Watch :=
  match hitData c w with
  | none => w
  | some data => w.afterMatch data

section
variable {s : State} {c : Committed}

theorem State.evaluateWatch_miss {i : WatchIx} (h : hitData c (cell s.events.watches i) = none) : s.evaluateWatch c i = s := by
  unfold State.evaluateWatch
  unfold hitData at h
  dsimp only
  cases word : watchedWord c (cell s.events.watches i) with
  | none => rfl
  | some data =>
    rw [word, Option.filter_some] at h
    have miss : (cell s.events.watches i).matches data = false := by simpa using h
    dsimp only
    rw [if_neg (by rw [miss]; exact Bool.false_ne_true)]

theorem State.evaluateWatch_hit {i : WatchIx} {data : Word} (h : hitData c (cell s.events.watches i) = some data) :
    s.evaluateWatch c i = (s.setEvents { s.events with
      watches := put s.events.watches i ((cell s.events.watches i).afterMatch data) }).post (.watchMatch i) c.region c.writer
        c.record c.version := by
  unfold State.evaluateWatch
  unfold hitData at h
  dsimp only
  cases word : watchedWord c (cell s.events.watches i) with
  | none =>
    rw [word] at h
    cases h
  | some d =>
    rw [word, Option.filter_some] at h
    by_cases hit : (cell s.events.watches i).matches d = true
    · rw [if_pos hit] at h
      obtain rfl := Option.some.inj h
      dsimp only
      rw [if_pos hit]
    · rw [if_neg hit] at h
      cases h

/-- A posting does not read or write the watches (07 R130). -/
theorem EventUnit.post_putWatches (e : EventUnit) (w : Vector Watch 8) (now : Word) (body : EventBody) (r : RegionId) (p : Port)
    (k : Nat) (v : Half) : ({ e with watches := w } : EventUnit).post now body r p k v =
      { e.post now body r p k v with watches := w } := by
  unfold EventUnit.post
  dsimp only
  split
  · rfl
  · split <;> rfl

/-- The event unit after one WATCH_MATCH for each of these watches, in order. -/
def matchEvents (c : Committed) (now : Word) (l : List WatchIx) (e : EventUnit) : EventUnit :=
  l.foldl (fun e i => e.post now (.watchMatch i) c.region c.writer c.record c.version) e

theorem matchEvents_putWatches (now : Word) (l : List WatchIx) (e : EventUnit) (w : Vector Watch 8) :
    matchEvents c now l { e with watches := w } = { matchEvents c now l e with watches := w } := by
  induction l generalizing e with
  | nil => rfl
  | cons i l ih =>
    unfold matchEvents at ih ⊢
    rw [List.foldl_cons, List.foldl_cons, EventUnit.post_putWatches, ih]

/-- The watches of a list are each examined once: each becomes what its own match makes of it, and one event is posted for each that
matches, in the list's order (07 R128, R129). -/
theorem State.evaluateEach (c : Committed) (l : List WatchIx) (s : State) (once : l.Nodup) :
    (∀ j, cell (l.foldl (fun s i => s.evaluateWatch c i) s).events.watches j =
      if j ∈ l then watchAfter c (cell s.events.watches j) else cell s.events.watches j) ∧
    (l.foldl (fun s i => s.evaluateWatch c i) s).events =
      { matchEvents c s.timebase (l.filter fun i => (hitData c (cell s.events.watches i)).isSome) s.events with
        watches := (l.foldl (fun s i => s.evaluateWatch c i) s).events.watches } := by
  induction l generalizing s with
  | nil => exact ⟨fun j => rfl, rfl⟩
  | cons i l ih =>
    obtain ⟨out, once⟩ := List.nodup_cons.1 once
    cases hit : hitData c (cell s.events.watches i) with
    | none =>
      obtain ⟨each, events⟩ := ih s once
      rw [List.foldl_cons, State.evaluateWatch_miss hit]
      refine ⟨fun j => (each j).trans ?_, ?_⟩
      · by_cases e : j = i
        · subst e
          rw [if_neg out, if_pos List.mem_cons_self, watchAfter, hit]
        · simp [e]
      · rw [List.filter_cons, hit]
        exact events
    | some data =>
      have changed : (s.evaluateWatch c i).events = { s.events.post s.timebase (.watchMatch i) c.region c.writer c.record c.version with
          watches := put s.events.watches i ((cell s.events.watches i).afterMatch data) } := by
        rw [State.evaluateWatch_hit hit, State.post_eq, State.setEvents_events, State.setEvents_events]
        exact EventUnit.post_putWatches ..
      have watches : (s.evaluateWatch c i).events.watches =
          put s.events.watches i ((cell s.events.watches i).afterMatch data) := by rw [changed]
      obtain ⟨each, events⟩ := ih (s.evaluateWatch c i) once
      rw [List.foldl_cons]
      refine ⟨fun j => (each j).trans ?_, ?_⟩
      · rw [watches]
        by_cases e : j = i
        · subst e
          rw [if_neg out, if_pos List.mem_cons_self, cell_put_same, watchAfter, hit]
        · simp [e, cell_put_other _ _ e]
      · have same : l.filter (fun j => (hitData c (cell (s.evaluateWatch c i).events.watches j)).isSome) =
            l.filter (fun j => (hitData c (cell s.events.watches j)).isSome) := by
          refine List.filter_congr fun j m => ?_
          rw [watches, cell_put_other _ _ fun (e : j = i) => out (e ▸ m)]
        have time : (s.evaluateWatch c i).timebase = s.timebase := (s.evaluateWatch_writes c i).timebase
        rw [same, time, changed, matchEvents_putWatches] at events
        rw [List.filter_cons, hit]
        exact events

end

theorem hitData_iff {c : Committed} {w : Watch} {data : Word} : hitData c w = some data ↔
    w.state = .active ∧ w.region = c.region ∧ (w.record = none ∨ w.record = some c.record) ∧ c.first ≤ w.offset ∧
    (∃ y a, c.words[w.offset - c.first]? = some y ∧ y.data = data ∧ c.answers[w.offset - c.first]? = some a ∧
      ∀ k : Fin 4, w.mask.extractLsb' (8 * k.val) 8 ≠ 0 → y.enables.getLsbD k.val = true ∧ a.isOkay = true) ∧
    w.matches data = true := by
  unfold hitData
  simp only [Option.filter_eq_some_iff, watchedWord_iff, selectedWritten_iff, and_assoc]

theorem Watch.matches_iff {w : Watch} {data : Word} : w.matches data = true ↔
    match w.condition with
    | .equal => data &&& w.mask = w.reference &&& w.mask
    | .notEqual => ¬ data &&& w.mask = w.reference &&& w.mask
    | .changed => ¬ data &&& w.mask = w.reference &&& w.mask := by
  unfold Watch.matches
  cases w.condition
  · exact beq_iff_eq
  · exact bne_iff_ne
  · exact bne_iff_ne

theorem watchAfter_hit {c : Committed} {w : Watch} {data : Word} (h : hitData c w = some data) : watchAfter c w = { w with
    state := match w.mode with | .once => .spent | .every => .active
    reference := match w.condition with
      | .changed => (w.reference &&& ~~~ w.mask) ||| (data &&& w.mask)
      | .equal => w.reference
      | .notEqual => w.reference } := by
  have active := (hitData_iff.1 h).1
  unfold watchAfter
  rw [h]
  unfold Watch.afterMatch
  dsimp only
  rw [active] <;> rfl

theorem watchAfter_miss {c : Committed} {w : Watch} (h : hitData c w = none) : watchAfter c w = w := by
  unfold watchAfter
  rw [h]

/-! ### The committed record's entry and buffers (01 R17, R18; 04 R76, R77, R79) -/

section
variable (s : State) (job : CommitJob)

theorem State.buffer_congr {s t : State} (h : t.pool = s.pool) (c : BufId) : t.buffer c = s.buffer c := by
  rw [State.buffer, State.buffer, h]

/-- A word of the commit's burst was answered FAULT. -/
def CommitJob.faulted (job : CommitJob) : Bool := job.answers.any Answer.isFault

theorem mem_allWatches (i : WatchIx) : i ∈ allWatches := by
  revert i
  decide

theorem State.evaluateAll (s : State) (c : Committed) :
    (∀ j, cell (s.evaluateWatches c).events.watches j = watchAfter c (cell s.events.watches j)) ∧
    (s.evaluateWatches c).events =
      { matchEvents c s.timebase (allWatches.filter fun i => (hitData c (cell s.events.watches i)).isSome) s.events with
        watches := (s.evaluateWatches c).events.watches } := by
  obtain ⟨each, events⟩ := State.evaluateEach c allWatches s (by decide)
  have fold : s.evaluateWatches c = allWatches.foldl (fun s i => s.evaluateWatch c i) s := rfl
  rw [fold]
  exact ⟨fun j => (each j).trans (if_pos (mem_allWatches j)), events⟩

/-- The event unit after a commit's RECORD_TORN, where it faulted (04 R77). -/
def State.commitEvents (s : State) (job : CommitJob) : EventUnit :=
  if job.faulted then
    s.events.post s.timebase (.recordTorn .commitFault) (s.buffer job.buffer).region (s.buffer job.buffer).writer
      (s.buffer job.buffer).record ((s.entry (s.buffer job.buffer).region (s.buffer job.buffer).record).version + 1)
  else s.events

/-- The commit as the event unit receives it (04 R78). -/
def State.committed (s : State) (job : CommitJob) : Committed :=
  { region := (s.buffer job.buffer).region, record := (s.buffer job.buffer).record, writer := (s.buffer job.buffer).writer,
    version := (s.settleRecord job.buffer job.faulted).version (s.buffer job.buffer).region (s.buffer job.buffer).record
    first := job.first, words := job.words, answers := job.answers }

theorem State.settledCommit_eq : s.settledCommit job =
    (s.settleRecord job.buffer job.faulted).evaluateWatches (s.committed job) := rfl

theorem State.settleRecord_versions (b : BufId) (faulted : Bool) : (s.settleRecord b faulted).versions =
    putD s.versions ((s.definition (s.buffer b).region).versionBase + (s.buffer b).record)
      ⟨(s.entry (s.buffer b).region (s.buffer b).record).version + 1,
        markAfterCommit faulted (covers (s.definition (s.buffer b).region) (s.buffer b).mask) (s.buffer b).preTorn
          (s.entry (s.buffer b).region (s.buffer b).record).torn⟩ := by
  unfold State.settleRecord
  dsimp only
  split
  · exact ((State.makePreTorn_writes _ _ _ _).seq (State.post_writes ..)).versions
  · rfl

theorem State.settleRecord_buffer (b c : BufId) (faulted : Bool) : (s.settleRecord b faulted).buffer c =
    if (faulted && ((s.buffer c).ofRecord (s.buffer b).region (s.buffer b).record && some b != some c)) = true then
      { s.buffer c with preTorn := true } else s.buffer c := by
  cases faulted with
  | true =>
    unfold State.settleRecord
    dsimp only
    rw [if_pos rfl, State.buffer_congr (State.post_pool ..), State.makePreTorn_buffers, Bool.true_and]
    rfl
  | false => rfl

theorem State.settleRecord_events : (s.settleRecord job.buffer job.faulted).events = s.commitEvents job := by
  unfold State.settleRecord State.commitEvents
  dsimp only
  split
  · rw [State.post_eq, State.setEvents_events, (State.makePreTorn_writes ..).events, (State.makePreTorn_writes ..).timebase]
    rfl
  · rfl

theorem State.commitEvents_watches : (s.commitEvents job).watches = s.events.watches := by
  unfold State.commitEvents
  split
  · exact EventUnit.post_watches ..
  · rfl

theorem State.settledCommit_watches (j : WatchIx) :
    cell (s.settledCommit job).events.watches j = watchAfter (s.committed job) (cell s.events.watches j) := by
  have each := (State.evaluateAll (s.settleRecord job.buffer job.faulted) (s.committed job)).1 j
  rwa [s.settleRecord_events, s.commitEvents_watches, ← s.settledCommit_eq] at each

/-- The watches that match a commit, in ascending index. -/
def State.hits (s : State) (job : CommitJob) : List WatchIx :=
  allWatches.filter fun i => (hitData (s.committed job) (cell s.events.watches i)).isSome

theorem State.settledCommit_events : (s.settledCommit job).events =
    { matchEvents (s.committed job) s.timebase (s.hits job) (s.commitEvents job) with
      watches := (s.settledCommit job).events.watches } := by
  have events := (State.evaluateAll (s.settleRecord job.buffer job.faulted) (s.committed job)).2
  rwa [s.settleRecord_events, s.commitEvents_watches, (s.settleRecord_writes ..).timebase, ← s.settledCommit_eq] at events

theorem State.settledCommit_buffer (c : BufId) : (s.settledCommit job).buffer c = (s.settleRecord job.buffer job.faulted).buffer c := by
  rw [s.settledCommit_eq]
  exact State.buffer_congr (State.evaluateWatches_writes ..).pool c

theorem State.freedCommit_pool : (s.freedCommit job).pool = ((s.settledCommit job).freeCommitted job.buffer).pool := by
  unfold State.freedCommit
  rw [State.setEngine_pool]
  exact (State.mapExecuting_writes ..).pool

theorem State.freedCommit_buffer (c : BufId) : (s.freedCommit job).buffer c =
    if c = job.buffer then { s.buffer job.buffer with state := .free, waitCount := 0 }
    else (s.settleRecord job.buffer job.faulted).buffer c := by
  rw [State.buffer_congr (s.freedCommit_pool job), State.freeCommitted_buffer, s.settledCommit_buffer, s.settledCommit_buffer]
  split
  · rw [s.settleRecord_buffer]
    simp
  · rfl

theorem State.freedCommit_events : (s.freedCommit job).events = (s.settledCommit job).events := by
  unfold State.freedCommit
  rw [State.setEngine_events]
  exact ((State.freeCommitted_writes ..).seq (State.mapExecuting_writes ..)).events

theorem State.freedCommit_versions : (s.freedCommit job).versions = (s.settleRecord job.buffer job.faulted).versions := by
  unfold State.freedCommit
  rw [State.setEngine_versions]
  exact (((State.freeCommitted_writes ..).seq (State.mapExecuting_writes ..)).versions).trans (s.settledCommit_versions job)

theorem State.freedCommit_holds : (s.freedCommit job).pool.holds = s.pool.holds := by
  rw [s.freedCommit_pool, State.freeCommitted_holds, (s.settledCommit_keepsUpdates job).holds]

/-- With no held write to open, a completion ends with the engine's next buffer (04 R79). -/
theorem State.completeCommit_unheld (none : s.pool.holds = []) : s.completeCommit job = (s.freedCommit job).takeCommit := by
  rw [s.completeCommit_eq, State.examineHolds_none _ ((s.freedCommit_holds job).trans none)]

/-- The buffer the engine takes changes its state alone, and it is CLOSED before (04 R70). -/
theorem State.takeCommit_leaves (c : BufId) : (s.takeCommit.buffer c = s.buffer c ∨
      ((s.buffer c).state = .closed ∧ s.takeCommit.buffer c = { s.buffer c with state := .committing })) ∧
    s.takeCommit.pool.closeOrder = s.pool.closeOrder ∧
    ((s.buffer c).state ≠ .closed → s.engine.current ≠ some c → s.takeCommit.engine.current ≠ some c) := by
  obtain e | ⟨b, job, idle, found, named, -, e⟩ := s.takeCommit_cases
  · rw [e]
    exact ⟨.inl rfl, rfl, fun _ h => h⟩
  · have closed := (State.firstEligible_eq_some s found).2.1
    rw [e]
    refine ⟨?_, rfl, fun n _ k => n ?_⟩
    · show (s.setBuffer b _).buffer c = _ ∨ _ ∧ (s.setBuffer b _).buffer c = _
      rw [State.setBuffer_buffer]
      split
      · next same => exact .inr ⟨same ▸ closed, by rw [same]⟩
      · exact .inl rfl
    · have same : job.buffer = c := Option.some.inj k
      rw [← same, named]
      exact closed

end

/-- Where no port's work and no view has changed, a step ends with the long command alone. -/
theorem State.AtRest.settle_long {s u : State} (rest : s.AtRest) (ports : u.ports = s.ports) (views : u.views = s.views) :
    u.settle = u.completeLong := by
  have still : u.movable = [] := State.movable_eq_nil.2 fun q =>
    (State.canAdvance_congr (State.port_congr ports q) (congrArg (fun x => x.get q) views)).trans (rest.still q)
  unfold State.settle
  rw [u.route_rest still]

section
variable {s : State} {tr : Transaction} {f : List Answer → List Answer} {i : Instr} {k : Cause} {job : CommitJob}

/-- The state in which the commit engine is told of its transaction's end: the port IDLE, the answers recorded. -/
def State.commitEnded (s : State) (job : CommitJob) (f : List Answer → List Answer) : State :=
  s.idlePort.setEngine (.writing { job with answers := f job.answers })

/-- The row that ends a commit's transaction, with no held write to open. -/
theorem State.Ends.commits (rest : s.AtRest) (none : s.pool.holds = []) (e : s.Ends .commit tr (f tr.answers))
    (writing : s.engine = .writing job) (by' : s.EndsBy tr i k f) : exec i s =
      .next (((s.commitEnded job f).freedCommit { job with answers := f job.answers }).takeCommit).completeLong := by
  have freed := (s.commitEnded job f).freedCommit_writes { job with answers := f job.answers }
  rw [(e.arrives by').2, State.ended_commit e.requester e.kept writing]
  show Host.Outcome.next ((s.commitEnded job f).completeCommit _).settle = _
  rw [State.completeCommit_unheld (s.commitEnded job f) _ none, rest.settle_long ((State.takeCommit_writes _).ports.trans freed.ports)
    ((State.takeCommit_writes _).views.trans freed.views)]

end

theorem matchEvents_queue_prefix (c : Committed) (now : Word) (l : List WatchIx) (e : EventUnit) :
    e.queue <+: (matchEvents c now l e).queue := by
  induction l generalizing e with
  | nil => exact List.prefix_rfl
  | cons i l ih => exact (EventUnit.post_queue_prefix ..).trans (ih _)

/-- Settles O26: the completion writes the record's entry, frees its buffer and marks the others; the engine's next buffer and a long
command's end leave that as it is. -/
theorem aCommitCompletionSettlesItsRecord : Obligations.ACommitCompletionSettlesItsRecord := by
  unfold Obligations.ACommitCompletionSettlesItsRecord
  intro s tr job f i c rest none ends writing by' x d k e faulted
  have row := ends.commits rest none writing by'
  generalize hj : ({ job with answers := f job.answers } : CommitJob) = done at row
  have job_buffer : done.buffer = job.buffer := by rw [← hj]
  have fault : done.faulted = (f job.answers).any Answer.isFault := by rw [← hj]; rfl
  generalize hu : s.commitEnded job f = u at row
  have buffers : ∀ b, u.buffer b = s.buffer b := fun b => by rw [← hu]; rfl
  have freed := u.freedCommit_writes done
  have mine : (u.freedCommit done).buffer job.buffer = { s.buffer job.buffer with state := .free, waitCount := 0 } := by
    rw [u.freedCommit_buffer, if_pos job_buffer.symm, job_buffer, buffers]
  have others : ∀ b, b ≠ job.buffer → (u.freedCommit done).buffer b =
      if ((f job.answers).any Answer.isFault && (s.buffer b).ofRecord x.region x.record) = true then
        { s.buffer b with preTorn := true } else s.buffer b := fun b ne => by
    rw [u.freedCommit_buffer, if_neg (by rw [job_buffer]; exact ne), u.settleRecord_buffer, job_buffer, buffers, buffers, fault]
    simp [Ne.symm ne, x]
  have order : (u.freedCommit done).pool.closeOrder = s.pool.closeOrder.erase job.buffer := by
    rw [u.freedCommit_pool, State.freeCommitted_closeOrder, (u.settledCommit_keepsUpdates done).closeOrder, job_buffer, ← hu]
    rfl
  have versions : (u.freedCommit done).versions = putD s.versions k ⟨e.version + 1,
      markAfterCommit ((f job.answers).any Answer.isFault) (covers d x.mask) x.preTorn e.torn⟩ := by
    rw [u.freedCommit_versions, u.settleRecord_versions, job_buffer, buffers, fault, ← hu]
    rfl
  have posted : (u.commitEvents done) = if (f job.answers).any Answer.isFault then
      (s.post (.recordTorn .commitFault) x.region x.writer x.record (e.version + 1)).events else s.events := by
    unfold State.commitEvents
    rw [fault, job_buffer, buffers, ← hu]
    rfl
  have events : (u.commitEvents done).queue <+: (u.freedCommit done).events.queue := by
    have queue : (u.settledCommit done).events.queue =
        (matchEvents (u.committed done) u.timebase (u.hits done) (u.commitEvents done)).queue :=
      (congrArg EventUnit.queue (u.settledCommit_events done)).trans rfl
    rw [u.freedCommit_events, queue]
    exact matchEvents_queue_prefix (u.committed done) u.timebase (u.hits done) (u.commitEvents done)
  obtain ⟨outstanding, ports, views, captures, timebase⟩ : u.mem.outstanding = Option.none ∧ u.ports = s.ports ∧ u.views = s.views ∧ u.captures = s.captures ∧
      u.timebase = s.timebase := by rw [← hu]; exact ⟨rfl, rfl, rfl, rfl, rfl⟩
  have idle : (u.freedCommit done).engine.current ≠ some job.buffer := nofun
  generalize u.freedCommit done = v at *
  have taken := v.takeCommit_writes
  have long := v.takeCommit.completeLong_writes
  have final : ∀ b, v.takeCommit.completeLong.buffer b = v.takeCommit.buffer b := State.buffer_congr long.pool
  have leaves := v.takeCommit_leaves
  have still : (v.buffer job.buffer).state ≠ .closed := by rw [mine]; exact nofun
  refine ⟨_, row, ?_, ?_, ?_, ?_, fun b ne => ?_, ?_, fun torn kept room => ?_, ?_, ?_, ?_, ?_⟩
  · rw [long.outstanding, taken.outstanding, freed.outstanding, outstanding]
  · rw [long.versions, taken.versions, versions]
    unfold markAfterCommit
    simp only [Bool.and_eq_true, Bool.not_eq_true', faulted]
  · obtain ⟨h | ⟨h, -⟩, -, -⟩ := leaves job.buffer
    · rw [final, h, mine]
    · exact absurd h still
  · rw [long.pool, (leaves job.buffer).2.1, order]
  · have kept : (v.takeCommit.buffer b).mask = (v.buffer b).mask ∧ (v.takeCommit.buffer b).image = (v.buffer b).image ∧
        (v.takeCommit.buffer b).preTorn = (v.buffer b).preTorn := by
      obtain ⟨h | ⟨-, h⟩, -, -⟩ := leaves b <;> rw [h] <;> exact ⟨rfl, rfl, rfl⟩
    rw [final, kept.1, kept.2.1, kept.2.2, others b ne]
    cases marked : ((f job.answers).any Answer.isFault && (s.buffer b).ofRecord x.region x.record)
    · simp
    · simp
  · rw [long.engine]
    exact (leaves job.buffer).2.2 still idle
  · rw [long.events, taken.events]
    refine List.IsPrefix.trans ?_ events
    obtain ⟨-, -, appended, -⟩ := postingKeepsDropsOrLosesTheEvent s (.recordTorn .commitFault) x.region x.writer x.record
      (e.version + 1)
    rw [posted, if_pos torn, (appended kept room).1]
  · rw [long.ports, taken.ports, freed.ports, ports]
  · rw [long.views, taken.views, freed.views, views]
  · rw [long.captures, taken.captures, freed.captures, captures]
  · rw [long.timebase, taken.timebase, freed.timebase, timebase]

/-- Settles O27: the watches are examined once each, with the record's version advanced, after the commit's own RECORD_TORN; nothing
later in the step posts or writes a watch. -/
theorem watchesAreEvaluatedAtACommit : Obligations.WatchesAreEvaluatedAtACommit := by
  unfold Obligations.WatchesAreEvaluatedAtACommit
  intro s tr job f i c rest none ends by' writing x inside advanced answers watch hit
  have row := ends.commits rest none writing by'
  generalize hj : ({ job with answers := f job.answers } : CommitJob) = done at row
  generalize hu : s.commitEnded job f = u at row
  have committed : u.committed done = ⟨x.region, x.record, x.writer, advanced, job.first, job.words, answers⟩ := by
    have version : (u.settleRecord done.buffer done.faulted).version x.region x.record = advanced := by
      unfold State.version State.entry
      have defn : (u.settleRecord done.buffer done.faulted).definition x.region = s.definition x.region := by
        rw [State.definition_congr (u.settleRecord_writes ..).regions, ← hu]
        rfl
      rw [defn, u.settleRecord_versions, ← hj, ← hu]
      show (cellD (putD s.versions ((s.definition x.region).versionBase + x.record) _) _ _).version = _
      rw [cellD_putD, if_pos ⟨rfl, inside⟩]
      rfl
    unfold State.committed
    rw [← hj, ← hu] at version ⊢
    exact congrArg (fun v => (⟨x.region, x.record, x.writer, v, job.first, job.words, answers⟩ : Committed)) version
  have hits : ∀ j data, hit j data ↔ hitData (u.committed done) (watch j) = some data := fun j data => by
    rw [committed, hitData_iff, Watch.matches_iff] <;> exact Iff.rfl
  have events : ((u.freedCommit done).takeCommit.completeLong).events = (u.settledCommit done).events := by
    rw [(State.completeLong_writes _).events, (State.takeCommit_writes _).events, u.freedCommit_events]
  have old : u.events = s.events := by rw [← hu]; rfl
  have after : ∀ j, cell ((u.freedCommit done).takeCommit.completeLong).events.watches j = watchAfter (u.committed done) (watch j) :=
    fun j => by rw [events, u.settledCommit_watches, old]
  refine ⟨_, row, fun j miss => ?_, fun j data h => ?_, fun l sorted members => ?_⟩
  · rw [after, watchAfter_miss (Option.eq_none_iff_forall_ne_some.2 fun data e => miss data ((hits j data).2 e))]
  · rw [after, watchAfter_hit ((hits j data).1 h)] <;> rfl
  · have same : l = u.hits done := by
      refine List.Perm.eq_of_pairwise' sorted ((by decide : allWatches.Pairwise (· < ·)).filter _) ?_
      refine (List.perm_ext_iff_of_nodup (sorted.imp fun h => ne_of_lt h) ((by decide : allWatches.Nodup).filter _)).2 fun j => ?_
      rw [members, List.mem_filter, and_iff_right (by revert j; decide), Option.isSome_iff_exists, old]
      exact exists_congr fun data => hits j data
    have torn : u.commitEvents done = if answers.any Answer.isFault then
        s.events.post s.timebase (.recordTorn .commitFault) x.region x.writer x.record advanced else s.events := by
      unfold State.commitEvents
      rw [← hj, ← hu]
      rfl
    have time : u.timebase = s.timebase := by rw [← hu]; rfl
    intro torn'
    have whole := u.settledCommit_events done
    rw [← events, ← same, time, torn, committed] at whole
    exact whole

end Sys2Proof.Machine

/-! SUPPORT. The end of a capture (05 R96, R97, R102): the words of its run, the wait counts, its view HELD or FREE, and the port's piece
that does not wait on it. -/

namespace Sys2Proof.Machine

/-! ### The words of a capture's run (05 R96) -/

theorem fillWord_kept (x : View) (j : Nat) (m : Word) : (fillWord x j m).version = x.version ∧ (fillWord x j m).torn = x.torn ∧
    (fillWord x j m).supplied = x.supplied := by
  unfold fillWord
  split <;> exact ⟨rfl, rfl, rfl⟩

theorem fillRun_kept (x : View) (j : Nat) (l : List Answer) : (fillRun x j l).version = x.version ∧ (fillRun x j l).torn = x.torn ∧
    (fillRun x j l).supplied = x.supplied := by
  induction l generalizing x j with
  | nil => exact ⟨rfl, rfl, rfl⟩
  | cons a l ih =>
    obtain ⟨version, torn, supplied⟩ := ih (fillWord x j a.word) (j + 1)
    obtain ⟨version', torn', supplied'⟩ := fillWord_kept x j a.word
    exact ⟨version.trans version', torn.trans torn', supplied.trans supplied'⟩

theorem fillWord_fill (x : View) (j : Nat) (m : Word) (k : Fin 16) :
    cell (fillWord x j m).fill k = if k.val = j then true else cell x.fill k := by
  unfold fillWord
  split
  · next filled =>
    split
    · next e =>
      rw [← e, ← cell_eq_cellD] at filled
      exact filled
    · rfl
  · exact cell_putD ..

theorem fillWord_image (x : View) (j : Nat) (m : Word) (k : Fin 16) : cell (fillWord x j m).image k =
    if k.val = j ∧ cell x.fill k = false then mergeWord m (cell x.image k) (cell x.supplied k) else cell x.image k := by
  unfold fillWord
  split
  · next filled =>
    rw [if_neg]
    rintro ⟨e, empty⟩
    rw [← e, ← cell_eq_cellD, empty] at filled
    cases filled
  · next empty =>
    rw [cell_putD]
    by_cases e : k.val = j
    · rw [← e, ← cell_eq_cellD] at empty
      rw [if_pos e, if_pos ⟨e, Bool.eq_false_iff.2 empty⟩, ← e, ← cell_eq_cellD, ← cell_eq_cellD]
    · rw [if_neg e, if_neg fun h => e h.1]

/-- A capture's run fills its words, and takes memory's value for the bytes of those that no basis buffer supplied (05 R96). -/
theorem fillRun_cells (x : View) (j : Nat) (l : List Answer) (k : Fin 16) (i : Fin 4) :
    cell (fillRun x j l).fill k = (cell x.fill k || decide (j ≤ k.val ∧ k.val < j + l.length)) ∧
    (cell (fillRun x j l).image k).extractLsb' (8 * i.val) 8 =
      if (j ≤ k.val ∧ k.val < j + l.length) ∧ cell x.fill k = false ∧ (cell x.supplied k).getLsbD i.val = false then
        ((l[k.val - j]?).getD .fault).word.extractLsb' (8 * i.val) 8
      else (cell x.image k).extractLsb' (8 * i.val) 8 := by
  induction l generalizing x j with
  | nil =>
    have out : ¬(j ≤ k.val ∧ k.val < j + ([] : List Answer).length) := fun h => absurd h.2 (Nat.not_lt.2 h.1)
    rw [decide_eq_false out, if_neg fun h => out h.1]
    exact ⟨(Bool.or_false _).symm, rfl⟩
  | cons a l ih =>
    obtain ⟨fill, image⟩ := ih (fillWord x j a.word) (j + 1)
    have same : (fillWord x j a.word).supplied = x.supplied := (fillWord_kept x j a.word).2.2
    unfold fillRun
    rw [fill, image, fillWord_fill, fillWord_image, same]
    by_cases e : k.val = j
    · have here : j ≤ k.val ∧ k.val < j + (a :: l).length := by rw [List.length_cons]; omega
      have first : (a :: l)[k.val - j]? = some a := by rw [e, Nat.sub_self]; rfl
      refine ⟨by rw [if_pos e, decide_eq_true here]; simp, ?_⟩
      rw [if_neg fun h => by omega]
      by_cases empty : cell x.fill k = false
      · rw [if_pos ⟨e, empty⟩, mergeWord_byte]
        cases supplied : (cell x.supplied k).getLsbD i.val with
        | false =>
          rw [if_neg Bool.false_ne_true, if_pos ⟨here, empty, rfl⟩, first]
          rfl
        | true => rw [if_pos rfl, if_neg fun h => nomatch h.2.2]
      · rw [if_neg fun h => empty h.2, if_neg fun h => empty h.2.1]
    · have within : (j + 1 ≤ k.val ∧ k.val < j + 1 + l.length) ↔ (j ≤ k.val ∧ k.val < j + (a :: l).length) := by
        rw [List.length_cons]
        omega
      have outside : ¬(k.val = j ∧ cell x.fill k = false) := fun h => e h.1
      rw [if_neg e, if_neg outside, decide_eq_decide.2 within]
      refine ⟨rfl, ?_⟩
      by_cases inside : j ≤ k.val ∧ k.val < j + (a :: l).length
      · have place : k.val - j = (k.val - (j + 1)) + 1 := by omega
        rw [place, List.getElem?_cons_succ]
        exact if_congr (and_congr_left' within) rfl rfl
      · rw [if_neg fun h => inside (within.1 h.1), if_neg fun h => inside h.1]

/-! ### The state a capture's end leaves (05 R96, R97, R102) -/

section
variable {s u : State} {p : Port} {tr : Transaction} {f : List Answer → List Answer} {i : Instr} {e : Cause} {c : Capture}
  {cs : List Capture} {v : ViewIx}

/-- The port IDLE, the capture gone and its hold set's wait counts lowered. -/
def State.captureEnded (s : State) (c : Capture) (cs : List Capture) : State := (s.idlePort.setCaptures cs).lowerWaits c.holdSet

theorem State.captureEnded_writes (s : State) (c : Capture) (cs : List Capture) :
    s.Writes [.outstanding, .captures, .pool] (s.captureEnded c cs) :=
  (s.idlePort_writes.seq ((s.idlePort.setCaptures_writes cs).seq (State.lowerWaits_writes _ c.holdSet))).mono (by decide)

theorem State.captureEnded_captures (s : State) (c : Capture) (cs : List Capture) : (s.captureEnded c cs).captures = cs :=
  (State.lowerWaits_writes _ c.holdSet).captures

theorem State.captureEnded_outstanding (s : State) (c : Capture) (cs : List Capture) : (s.captureEnded c cs).mem.outstanding = none :=
  (State.lowerWaits_writes _ c.holdSet).outstanding

theorem State.captureEnded_buffer (nodup : c.holdSet.Nodup) (b : BufId) : (s.captureEnded c cs).buffer b =
    { s.buffer b with waitCount := if b ∈ c.holdSet then (s.buffer b).waitCount - 1 else (s.buffer b).waitCount } :=
  State.lowerWaits_buffer _ nodup b

theorem State.captureEnded_view (q : Port) (w : ViewIx) : (s.captureEnded c cs).view q w = s.view q w :=
  congrArg (fun x : PerPort PortViews => cell (x.get q).views w) (s.captureEnded_writes c cs).views

theorem State.endCapture_front (s : State) (c : Capture) (cs : List Capture) :
    (s.setCaptures (c :: cs)).endCapture c = (s.setCaptures cs).lowerWaits c.holdSet := by
  unfold State.endCapture
  rw [State.setCaptures_captures, List.erase_cons_head]
  rfl

/-- A capture's transaction ends with the capture completed or faulted (05 R96, R102; 06 R117). -/
theorem State.Ends.reads (h : s.Ends .capture tr (f tr.answers)) (front : s.captures = c :: cs) (answers : c.answers = tr.answers) :
    s.ended tr f = (if (f tr.answers).any Answer.isFault then
        (s.idlePort.setCaptures ({ c with answers := f tr.answers } :: cs)).faultCapture { c with answers := f tr.answers }
      else (s.idlePort.setCaptures ({ c with answers := f tr.answers } :: cs)).completeCapture
        { c with answers := f tr.answers }).mapExecuting Executing.afterCapture := by
  rw [State.ended_capture h.requester h.kept front, answers]
  rfl

/-- The capture's view as its answers fill it. -/
def State.filledView (s : State) (c : Capture) (v : ViewIx) (answers : List Answer) : View :=
  { fillRun (s.view c.port v) c.first answers with
    state := .held
    completeTime := s.timebase }

theorem State.filledCapture_front (s : State) (c : Capture) (cs : List Capture) (v : ViewIx) (answers : List Answer) :
    (s.idlePort.setCaptures ({ c with answers := answers } :: cs)).filledCapture { c with answers := answers } v =
      (s.captureEnded c cs).setView c.port v (s.filledView c v answers) := by
  unfold State.filledCapture
  rw [State.endCapture_front]
  show (s.captureEnded c cs).setView c.port v { fillRun ((s.captureEnded c cs).view c.port v) c.first answers with
    state := .held, completeTime := (s.captureEnded c cs).timebase } = _
  rw [State.captureEnded_view, (s.captureEnded_writes c cs).timebase]
  rfl

theorem State.captureEnded_port (q : Port) : (s.captureEnded c cs).port q = s.port q :=
  State.port_congr (s.captureEnded_writes c cs).ports q

theorem State.filledCapture_port (s : State) (c : Capture) (v : ViewIx) (p : Port) : (s.filledCapture c v).port p = s.port p :=
  State.port_congr (State.endCapture_writes s c).ports p

theorem State.failedCapture_port (s : State) (c : Capture) (v : ViewIx) (p : Port) : (s.failedCapture c v).port p = s.port p :=
  State.port_congr ((State.releaseView_writes _ c.port v).ports.trans (State.endCapture_writes s c).ports) p

/-- Where the port's piece does not wait on the view, the completed capture only fills it. -/
theorem State.completeCapture_unwanted (view : c.view = some v)
    (unwanted : ∀ x, (s.port c.port).service.piece = some x → x.wait ≠ .onView v) : s.completeCapture c = s.filledCapture c v := by
  rw [State.completeCapture_eq, view]
  dsimp only
  rw [State.filledCapture_port]
  cases waits : (s.port c.port).service.piece with
  | none => rfl
  | some x =>
    dsimp only
    cases x.spot with
    | none => rfl
    | some spot => exact if_neg (unwanted x waits)

theorem State.completeCapture_wanted (view : c.view = some v) {x : Piece} {spot : Spot}
    (piece : (s.port c.port).service.piece = some x) (wait : x.wait = .onView v) (at' : x.spot = some spot) :
    s.completeCapture c = (s.filledCapture c v).answerFromView c.port v spot x.beats := by
  rw [State.completeCapture_eq, view]
  dsimp only
  rw [State.filledCapture_port, piece]
  dsimp only
  rw [at']
  exact if_pos wait

/-- Where the port's piece does not wait on the view, the faulted capture only releases it and posts its event. -/
theorem State.faultCapture_unwanted (view : c.view = some v)
    (unwanted : ∀ x, (s.port c.port).service.piece = some x → x.wait ≠ .onView v) : s.faultCapture c =
      (s.failedCapture c v).post (.memoryFault (c.first + firstFault c.answers)) c.region c.port c.record
        (s.version c.region c.record) := by
  rw [State.faultCapture_eq, view]
  dsimp only
  rw [State.failedCapture_port]
  cases waits : (s.port c.port).service.piece with
  | none => rfl
  | some x =>
    dsimp only
    rw [if_neg (unwanted x waits)]

theorem State.faultCapture_wanted (view : c.view = some v) {x : Piece} (piece : (s.port c.port).service.piece = some x)
    (wait : x.wait = .onView v) : s.faultCapture c =
      ((s.failedCapture c v).finishPiece c.port x.beats .fault (List.replicate x.beats 0)).post
        (.memoryFault (c.first + firstFault c.answers)) c.region c.port c.record (s.version c.region c.record) := by
  rw [State.faultCapture_eq, view]
  dsimp only
  rw [State.failedCapture_port, piece]
  dsimp only
  rw [if_pos wait]

/-- Where the port's piece does not wait on the view, the capture's end leaves it. -/
theorem State.Ends.fills (h : s.Ends .capture tr (f tr.answers)) (front : s.captures = c :: cs) (answers : c.answers = tr.answers)
    (view : c.view = some v) (okay : (f tr.answers).any Answer.isFault = false)
    (unwanted : ∀ x, (s.port c.port).service.piece = some x → x.wait ≠ .onView v) : s.ended tr f =
      ((s.captureEnded c cs).setView c.port v (s.filledView c v (f tr.answers))).mapExecuting Executing.afterCapture := by
  rw [h.reads front answers, if_neg (by rw [okay]; exact Bool.false_ne_true), State.completeCapture_unwanted (s := s.idlePort.setCaptures _)
    (c := { c with answers := f tr.answers }) view unwanted, State.filledCapture_front]

/-- A view released with the end of the capture that filled it: no other capture fills it (05 R86). -/
theorem State.ViewsLawful.failedCapture_front (h : s.ViewsLawful) (front : s.captures = c :: cs) (view : c.view = some v)
    (answers : List Answer) :
    (s.idlePort.setCaptures ({ c with answers := answers } :: cs)).failedCapture { c with answers := answers } v =
      (s.captureEnded c cs).freeView c.port v := by
  unfold State.failedCapture
  rw [State.endCapture_front]
  refine State.releaseView_unfilled (s := s.captureEnded c cs) ?_
  rw [State.captureEnded_captures, List.find?_eq_none]
  intro d mem fills
  have apart := h.distinct
  rw [front, List.pairwise_cons] at apart
  exact apart.1 d mem c.port v ⟨Capture.fills_iff.2 ⟨rfl, view⟩, fills⟩

theorem State.Ends.fails (h : s.Ends .capture tr (f tr.answers)) (lawful : s.ViewsLawful) (front : s.captures = c :: cs)
    (answers : c.answers = tr.answers) (view : c.view = some v) (faulted : (f tr.answers).any Answer.isFault = true)
    (unwanted : ∀ x, (s.port c.port).service.piece = some x → x.wait ≠ .onView v) : s.ended tr f =
      (((s.captureEnded c cs).freeView c.port v).post (.memoryFault (c.first + firstFault (f tr.answers))) c.region c.port c.record
        (s.version c.region c.record)).mapExecuting Executing.afterCapture := by
  rw [h.reads front answers, if_pos faulted, State.faultCapture_unwanted (s := s.idlePort.setCaptures _)
    (c := { c with answers := f tr.answers }) view unwanted, lawful.failedCapture_front front view]
  rfl

/-- With the ports unchanged and only one port's views changed, of which its piece asks none, no router moves. -/
theorem State.AtRest.settle_unwanted (rest : s.AtRest) (ports : u.ports = s.ports) (views : ∀ q, q ≠ p → u.views.get q = s.views.get q)
    (unwanted : ∀ x, (s.port p).service.piece = some x → x.wait ≠ .forView) : u.settle = u.completeLong := by
  have still : u.movable = [] := State.movable_eq_nil.2 fun q => by
    by_cases eq : q = p
    · subst eq
      cases queue : (u.port q).queue with
      | nil => exact State.canAdvance_empty queue
      | cons r l =>
        have port := State.port_congr ports q
        cases piece : (s.port q).service.piece with
        | none =>
          have can := State.canAdvance_ready (s := s) (port ▸ queue) piece
          rw [rest.still q] at can
          cases can
        | some x => exact State.canAdvance_waiting (port ▸ piece) fun wait => absurd wait (unwanted x piece)
    · exact (State.canAdvance_congr (State.port_congr ports q) (views q eq)).trans (rest.still q)
  unfold State.settle
  rw [u.route_rest still]

end

/-- Settles O29: the capture's end fills its view and lowers its hold set's wait counts; no router can move for it. -/
theorem aCompletedCaptureFillsItsView : Obligations.ACompletedCaptureFillsItsView := by
  intro s tr a c cs v rest front view nodup ends answers
  dsimp only
  intro okay unwanted
  have none : (answerFirst tr.answers (recorded tr.request a)).any Answer.isFault = false := List.any_eq_false.2 fun y mem => by
    rw [okay y mem]; exact Bool.false_ne_true
  have by' : s.EndsBy tr (.memoryAnswer tr.tag a) (.answer tr.tag a) fun as => answerFirst as (recorded tr.request a) :=
    .inl ⟨a, rfl, rfl, rfl⟩
  have row := (State.Ends.arrives (f := fun as => answerFirst as (recorded tr.request a)) ends by').2
  rw [State.Ends.fills (f := fun as => answerFirst as (recorded tr.request a)) ends front answers view none
    fun x piece => (unwanted x piece).1] at row
  generalize hl : answerFirst tr.answers (recorded tr.request a) = l at row
  generalize hu : ((s.captureEnded c cs).setView c.port v (s.filledView c v l)).mapExecuting Executing.afterCapture = u at row
  have ended := s.captureEnded_writes c cs
  have link := State.mapExecuting_writes ((s.captureEnded c cs).setView c.port v (s.filledView c v l)) Executing.afterCapture
  have set := State.setView_writes (s.captureEnded c cs) c.port v (s.filledView c v l)
  rw [hu] at link
  have ports : u.ports = s.ports := link.ports.trans (set.ports.trans ended.ports)
  have views : ∀ q, q ≠ c.port → u.views.get q = s.views.get q := fun q ne => by
    rw [link.views, ← ended.views]
    exact PerPort.get_set_other _ _ ne
  rw [rest.settle_unwanted ports views fun x piece => (unwanted x piece).2] at row
  have done := u.completeLong_writes
  have held : u.completeLong.view c.port v = s.filledView c v l := by
    refine (congrArg (fun x => cell (x.get c.port).views v) (done.views.trans link.views)).trans ?_
    exact State.setView_view_same ..
  have buffer : ∀ b, u.completeLong.buffer b = (s.captureEnded c cs).buffer b := fun b =>
    State.buffer_congr (done.pool.trans (link.pool.trans set.pool)) b
  obtain ⟨version, torn, -⟩ := fillRun_kept (s.view c.port v) c.first l
  refine ⟨_, row, ?_, ?_, ?_, ?_, ?_, ?_, fun k j => ?_, fun b => ?_, ?_, ?_, ?_⟩
  · rw [done.outstanding, link.outstanding, set.outstanding, s.captureEnded_outstanding]
  · rw [done.captures, link.captures, set.captures, s.captureEnded_captures]
  · rw [held]; rfl
  · rw [held]; rfl
  · rw [held]; exact version
  · rw [held]; exact torn
  · rw [held]
    exact fillRun_cells (s.view c.port v) c.first l k j
  · rw [buffer, State.captureEnded_buffer nodup]
  · rw [done.versions, link.versions, set.versions, ended.versions]
  · rw [done.ports, ports]
  · rw [done.events, link.events, set.events, ended.events]

theorem firstFault_eq {l : List Answer} {lo : Nat} (fault : l[lo]? = some .fault) (first : ∀ k, k < lo → l[k]? ≠ some .fault) :
    firstFault l = lo := by
  obtain ⟨lt, is⟩ := List.getElem?_eq_some_iff.1 fault
  refine (List.findIdx_eq lt).2 ⟨by rw [is]; rfl, fun j lt' => ?_⟩
  have ne := first j lt'
  rw [List.getElem?_eq_getElem (lt'.trans lt)] at ne
  cases h : l[j] with
  | fault => exact absurd (congrArg some h) ne
  | okay w => rfl
  | unanswered => rfl

/-- Settles O30: the capture's end frees its view, lowers its hold set's wait counts and posts the event; no router can move for it. -/
theorem aFaultedCaptureReleasesItsView : Obligations.AFaultedCaptureReleasesItsView := by
  intro s tr f i e c cs v lo rest lawful front view nodup ends answers by' fault first unwanted
  have some' : (f tr.answers).any Answer.isFault = true := List.any_eq_true.2 ⟨_, List.mem_of_getElem? fault, rfl⟩
  have row := (ends.arrives by').2
  rw [ends.fails lawful front answers view some' fun x piece => (unwanted x piece).1, firstFault_eq fault first] at row
  generalize hw : ((s.captureEnded c cs).freeView c.port v).post (.memoryFault (c.first + lo)) c.region c.port c.record
    (s.version c.region c.record) = w at row
  have ended := s.captureEnded_writes c cs
  have free := (s.captureEnded c cs).freeView_writes c.port v
  have post := ((s.captureEnded c cs).freeView c.port v).post_writes (.memoryFault (c.first + lo)) c.region c.port c.record
    (s.version c.region c.record)
  rw [hw] at post
  have link := w.mapExecuting_writes Executing.afterCapture
  generalize w.mapExecuting Executing.afterCapture = u at row link
  have ports : u.ports = s.ports := link.ports.trans (post.ports.trans (free.ports.trans ended.ports))
  have views : u.views = ((s.captureEnded c cs).freeView c.port v).views := link.views.trans post.views
  have others : ∀ q, q ≠ c.port → u.views.get q = s.views.get q := fun q ne => by
    rw [views, ← ended.views]
    exact PerPort.get_set_other _ _ ne
  rw [rest.settle_unwanted ports others fun x piece => (unwanted x piece).2] at row
  have done := u.completeLong_writes
  have buffer : ∀ b, u.completeLong.buffer b = (s.captureEnded c cs).buffer b := fun b =>
    State.buffer_congr (done.pool.trans (link.pool.trans (post.pool.trans free.pool))) b
  refine ⟨_, row, ?_, ?_, ?_, ?_, ?_, fun b => ?_, fun b => ?_, ?_, ?_⟩
  · rw [done.outstanding, link.outstanding, post.outstanding, free.outstanding, s.captureEnded_outstanding]
  · rw [done.captures, link.captures, post.captures, free.captures, s.captureEnded_captures]
  · refine (congrArg (fun x => (cell (x.get c.port).views v).state) (done.views.trans views)).trans ?_
    refine (congrArg View.state (State.freeView_view (s.captureEnded c cs) c.port c.port v v)).trans ?_
    rw [if_pos ⟨rfl, rfl⟩]
  · rw [done.views, views]
    have list : (((s.captureEnded c cs).freeView c.port v).views.get c.port).useList = (s.views.get c.port).useList.erase v := by
      rw [← ended.views]
      exact congrArg PortViews.useList (PerPort.get_set_same ..)
    rw [list]
    exact fun mem => ((lawful.use_nodup c.port).mem_erase_iff.1 mem).1 rfl
  · rw [done.events, link.events, ← hw]
    have events : ((s.captureEnded c cs).freeView c.port v).events = s.events := free.events.trans ended.events
    have time : ((s.captureEnded c cs).freeView c.port v).timebase = s.timebase := free.timebase.trans ended.timebase
    unfold State.post
    rw [events, time]
    rfl
  · rw [buffer, State.captureEnded_buffer nodup]
  · rw [buffer, State.captureEnded_buffer nodup]
  · rw [done.versions, link.versions, post.versions, free.versions, ended.versions]
  · rw [done.ports, ports]

end Sys2Proof.Machine

/-! SUPPORT. The reads a capture's end answers or forms again (05 R87, R88, R96, R98, R102): the piece that waits on the view, and the
piece that awaits one. -/

namespace Sys2Proof.Machine

/-! ### The response to a request whose last piece an arrival finishes (02 R37) -/

section
variable {s t u : State} {p q : Port} {r : Request} {l : List Request}

/-- A port whose views and port state are unchanged moves no more than before. -/
theorem State.AtRest.unmoved (rest : s.AtRest) (port : u.port q = s.port q) (views : u.views.get q = s.views.get q) :
    u.canAdvance q = false := (State.canAdvance_congr port views).trans (rest.still q)

/-- The port whose piece an arrival finishes, the last of its request, returns the response in the step (02 R37). -/
theorem State.AtRest.finished (rest : s.AtRest) {g : State} {n : Nat} {st : Status} {ws : List Word}
    (finishes : u.ports = (g.finishPiece p n st ws).ports) (same : u.views = g.views) (ports : g.ports = s.ports)
    (views : ∀ q, q ≠ p → g.views.get q = s.views.get q) (queue : (s.port p).queue = r :: l)
    (whole : (s.port p).service.next + n = r.beats) : (s.port p).responses ++
      [⟨worst ((s.port p).service.outcomes ++ [st]), if isRead r then (s.port p).service.words ++ ws else []⟩] <+:
        (u.settle.port p).responses := by
  have port := (State.port_congr finishes p).trans (g.finishPiece_port_eq p n st ws)
  rw [State.port_congr ports] at port
  have others : ∀ q, q ≠ p → u.canAdvance q = false := fun q ne => by
    refine rest.unmoved ((State.port_congr finishes q).trans ((g.setPort_port_other _ ne).trans (State.port_congr ports q))) ?_
    rw [same]
    exact views q ne
  have queue' : (u.port p).queue = r :: l := by rw [port]; exact queue
  have first := Moves.route_first queue' (State.canAdvance_ready queue' (by rw [port])) others
  rw [State.advance_responds queue' (by rw [port]; exact le_of_eq whole.symm)] at first
  have settled : (u.settle.port p).responses = (u.route.port p).responses :=
    congrArg PortState.responses (State.port_congr (State.completeLong_writes _).ports p)
  have grown := first.grows p
  rw [u.respond_port, port] at grown
  rw [settled]
  exact grown

end

/-! ### A view opened for a record, and used -/

section
variable {s t u : State} {p q : Port} {v : ViewIx} {x : Spot} {n : Nat} {r : Request}

theorem State.viewToOpen_some (h : s.viewToOpen p = some v) : (s.view p v).state = .free ∨ (s.view p v).state = .held := by
  unfold State.viewToOpen at h
  split at h
  · next w found =>
    obtain rfl := Option.some.inj h
    exact .inl (of_decide_eq_true (List.find?_some (p := fun v => decide ((s.view p v).state = .free)) found))
  · exact .inr (of_decide_eq_true (List.find?_some (p := fun v => decide ((s.view p v).state = .held)) h))

/-- Of the port's views, the one that is not CAPTURING is opened (05 R87). -/
theorem State.ViewsLawful.viewToOpen_only (lawful : s.ViewsLawful) (state : (s.view p v).state = .free ∨ (s.view p v).state = .held)
    (others : ∀ w, w ≠ v → (s.view p w).state = .capturing) : s.viewToOpen p = some v := by
  refine State.viewToOpen_eq ?_
  obtain free | held := state
  · exact .inl ⟨free, fun w lt => by rw [others w (ne_of_lt lt)]; nofun⟩
  · refine .inr ⟨fun w => ?_, ?_⟩
    · by_cases e : w = v
      · rw [e, held]; nofun
      · rw [others w e]; nofun
    · have isSome : ((s.views.get p).useList.find? fun w => decide ((s.view p w).state = .held)).isSome = true :=
        List.find?_isSome.2 ⟨v, (lawful.use_iff p v).2 (by rw [held]; nofun), decide_eq_true held⟩
      obtain ⟨w, found⟩ := Option.isSome_iff_exists.1 isSome
      rw [found]
      by_cases e : w = v
      · rw [e]
      · have state := of_decide_eq_true (List.find?_some (p := fun w => decide ((s.view p w).state = .held)) found)
        rw [others w e] at state
        cases state

theorem State.openView_state (s : State) (p : Port) (v : ViewIx) (x : Spot) :
    ((((s.releaseView p v).openView p v x.region x.record).view p v)).state ≠ .free := by
  obtain ⟨y, -, -, view, -, -, kept⟩ := (s.releaseView p v).openView_view p v x.region x.record
  rw [view, if_pos ⟨rfl, rfl⟩]
  obtain ⟨state, -, -⟩ | ⟨state, -⟩ := kept
  all_goals rw [state]; nofun

/-- The use of a view just opened: nothing but, where the piece includes the release word, its release (05 R99, R103). -/
theorem State.OpensView.used (h : s.OpensView p v x t) (lawful : s.ViewsLawful) (free : (s.view p v).state ≠ .capturing) (n : Nat) :
    s.ViewedBy p v x (t.usedView p v x n) ∧ ((t.usedView p v x n).view p v).fill = (t.view p v).fill ∧
      s.viewResponse x n ((t.usedView p v x n).view p v) = s.viewResponse x n (t.view p v) ∧
      (¬ s.Releases x n → (t.usedView p v x n).view p v = t.view p v) := by
  by_cases releases : s.Releases x n
  · have used : t.usedView p v x n = (t.freeView p v).setCaptures s.captures := by
      rw [State.usedView_releases ((State.releases_congr h.regions).2 releases), h.touched lawful, h.released lawful free]
    have view : ((t.freeView p v).setCaptures s.captures).view p v = { t.view p v with state := .free } :=
      (t.freeView_view p p v v).trans (if_pos ⟨rfl, rfl⟩)
    rw [used, view]
    exact ⟨h.viewed.freed s.captures, rfl, rfl, fun n => absurd releases n⟩
  · have used : t.usedView p v x n = t := by
      rw [State.usedView_keeps fun r => releases ((State.releases_congr h.regions).1 r), h.touched lawful]
    rw [used]
    exact ⟨h.viewed, rfl, rfl, fun _ => rfl⟩

theorem State.answerFromView_response (s : State) (p : Port) (v : ViewIx) (x : Spot) (n : Nat) : s.answerFromView p v x n =
    (s.usedView p v x n).finishPiece p n (s.viewResponse x n (s.view p v)).status (s.viewResponse x n (s.view p v)).data := by
  rw [s.answerFromView_eq, ← viewWords_eq]

theorem State.viewResponse_congr (h : t.regions = s.regions) (x : Spot) (n : Nat) (y : View) :
    t.viewResponse x n y = s.viewResponse x n y := by
  unfold State.viewResponse
  rw [State.definition_congr h]

/-- What becomes of a piece of `n` words, the last of its port's one request, that is formed again and opens a view (05 R87, R98). -/
structure State.Reforms (s : State) (p : Port) (r : Request) (n : Nat) (x : Spot) (v : ViewIx) (t : State) : Prop where
  just : s.JustOpened x (t.view p v)
  answered : FilledFor (t.view p v) x n → (t.port p).queue = [] ∧ (t.port p).responses = (s.port p).responses ++
    [⟨worst ((s.port p).service.outcomes ++ [(s.viewResponse x n (t.view p v)).status]),
      (s.port p).service.words ++ (s.viewResponse x n (t.view p v)).data⟩]
  waits : ¬ FilledFor (t.view p v) x n →
    t.port p = { s.port p with service := { (s.port p).service with piece := some ⟨n, some x, .onView v⟩ } }
  stays : ¬(FilledFor (t.view p v) x n ∧ s.Releases x n) → (t.view p v).state ≠ .free
  events : t.events = s.events

/-- A router that can move, its port's one request lacking one piece, of a record its port reads and has no view of, opens a view. -/
theorem State.ViewsLawful.reforms (lawful : s.ViewsLawful) (queue : (s.port p).queue = [r]) (can : s.canAdvance p = true)
    (others : ∀ q, q ≠ p → s.canAdvance q = false) (read : isRead r = true)
    (inside : r.address.toNat + 4 * (r.beats - 1) ≤ 0xFFFFFFFC) (words : 1 ≤ n) (whole : (s.port p).service.next + n = r.beats)
    (within : s.RestWithin r (s.port p).service.next x) (writer : (s.definition x.region).writer ≠ p)
    (reader : (s.definition x.region).readers.get p = true) (none : s.viewOf p x.region x.record = none)
    (toOpen : s.viewToOpen p = some v) : s.Reforms p r n x v s.route := by
  have n' : (s.view p v).state ≠ .capturing := by
    obtain e | e := State.viewToOpen_some toOpen <;> rw [e] <;> nofun
  have opened := lawful.opensView n' x
  have open' := s.openView_state p v x
  have size : r.beats - (s.port p).service.next = n := by omega
  have first : s.advance p = ((s.releaseView p v).openView p v x.region x.record).serveFromView p v x n := by
    rw [(within.piece (by omega)).advance queue rfl (pastTop_eq_false inside), State.handPiece_view _ _ read writer reader,
      State.viewPiece_opens none toOpen, size]
  generalize (s.releaseView p v).openView p v x.region x.record = t at opened open' first
  obtain ⟨kept, fill, response, still⟩ := opened.used lawful n' n
  have unmoved : ∀ w : State, s.ViewedBy p v x w → ∀ y q, q ≠ p → (w.setPort p y).canAdvance q = false := fun w k y q ne =>
    (State.canAdvance_congr (k.other y ne) (k.apart q ne)).trans (others q ne)
  have work : ∀ m, m ≤ 3 → m ≤ s.workLeft := fun m le => by
    have := State.work_le (s := s) (p := p) (r := r) (by rw [queue]; exact List.mem_cons_self)
    omega
  by_cases filled : FilledFor (t.view p v) x n
  · rw [State.serveFromView_filled filled, State.answerFromView_response, State.viewResponse_congr opened.regions] at first
    generalize t.usedView p v x n = w at *
    have port : w.port p = s.port p := State.port_congr kept.ports p
    have turned := w.finishPiece_port_eq p n (s.viewResponse x n (t.view p v)).status (s.viewResponse x n (t.view p v)).data
    rw [port] at turned
    have second : State.Turns p 1 (s.advance p) ((s.advance p).respond p r []) := by
      refine .move (State.movable_only ?_ ?_) ?_
      · rw [first]
        exact State.canAdvance_ready (r := r) (l := []) (by rw [turned]; exact queue) (by rw [turned])
      · rw [first]
        exact unmoved w kept _
      · rw [State.advance_responds (r := r) (l := []) (by rw [first, turned]; exact queue)
          (by rw [first, turned]; exact le_of_eq whole.symm)]
        refine .still (State.movable_eq_nil.2 fun q => ?_)
        by_cases e : q = p
        · subst e
          exact State.canAdvance_empty (by rw [State.respond_port])
        · rw [first]
          unfold State.respond State.finishPiece State.setService
          rw [State.setPort_setPort]
          exact unmoved w kept _ q e
    have route : s.route = (s.advance p).respond p r [] :=
      (State.Turns.move (State.movable_only can others) second).run (work 2 (by decide))
    have final : s.route.view p v = w.view p v := by rw [route, first]; rfl
    have filled' : FilledFor (w.view p v) x n := fun k lt => by rw [fill]; exact filled k lt
    constructor
    case just => rw [final]; exact kept.just
    case answered =>
      intro _
      rw [final, response, route, first, State.respond_port, turned]
      refine ⟨rfl, ?_⟩
      show _ ++ [responseOf r _] = _
      unfold responseOf
      rw [read]
      rfl
    case waits =>
      intro unfilled
      rw [final] at unfilled
      exact absurd filled' unfilled
    case stays =>
      intro stays
      rw [final] at stays ⊢
      rw [still fun releases => stays ⟨filled', releases⟩]
      exact open'
    case events =>
      rw [route, first]
      exact kept.kept.2.2.1
  · rw [State.serveFromView_unfilled filled] at first
    have port : (s.advance p).port p =
        { s.port p with service := { (s.port p).service with piece := some ⟨n, some x, .onView v⟩ } } := by
      rw [first, ← State.port_congr opened.ports p]
      exact State.setPort_port_same ..
    have route : s.route = s.advance p := by
      refine (State.Turns.move (State.movable_only can others) (.still (State.movable_eq_nil.2 fun q => ?_))).run (work 1 (by decide))
      by_cases e : q = p
      · subst e
        exact State.canAdvance_waiting (x := ⟨n, some x, .onView v⟩) (by rw [port]) nofun
      · rw [first]
        exact unmoved t opened.viewed _ q e
    have final : s.route.view p v = t.view p v := by rw [route, first]; rfl
    constructor
    case just => rw [final]; exact opened.just
    case answered =>
      intro filled'
      rw [final] at filled'
      exact absurd filled' filled
    case waits =>
      intro _
      rw [route, port]
    case stays =>
      intro _
      rw [final]
      exact open'
    case events =>
      rw [route, first]
      exact opened.viewed.kept.2.2.1

end

/-! ### A view just opened, seen from a state whose closed updates are the same -/

theorem overlay_map_congr {l : List BufId} {f g : BufId → Buffer} (h : ∀ b ∈ l, (f b).image = (g b).image ∧ (f b).mask = (g b).mask)
    (k : Nat) : overlay (l.map f) k = overlay (l.map g) k := by
  rw [overlay_eq, overlay_eq, List.foldl_map, List.foldl_map]
  refine List.foldl_ext _ _ _ fun acc b mem => ?_
  obtain ⟨image, mask⟩ := h b mem
  unfold overlayOne
  rw [image, mask]

section
variable {s u : State} {p : Port} {v : ViewIx} {x : Spot} {n : Nat} {r : Request}

/-- The buffers in close order are the same, but for their wait counts; so are the tables and the time. -/
structure State.SameBasis (s u : State) : Prop where
  regions : u.regions = s.regions
  versions : u.versions = s.versions
  timebase : u.timebase = s.timebase
  closeOrder : u.pool.closeOrder = s.pool.closeOrder
  buffers : ∀ b ∈ s.pool.closeOrder, ∃ n, u.buffer b = { s.buffer b with waitCount := n }

theorem State.SameBasis.justOpened (h : s.SameBasis u) {y : View} (just : u.JustOpened x y) : s.JustOpened x y := by
  have defn := State.definition_congr h.regions x.region
  have entry : u.entry x.region x.record = s.entry x.region x.record := by
    unfold State.entry
    rw [defn, h.versions]
  have basis : u.basisOf x.region x.record = s.basisOf x.region x.record := by
    unfold State.basisOf
    rw [h.closeOrder]
    refine List.filter_congr fun b mem => ?_
    obtain ⟨n, e⟩ := h.buffers b mem
    rw [e]
    rfl
  have member : ∀ b ∈ y.basis, b ∈ s.pool.closeOrder := fun b mem => by
    rw [just.basis, basis] at mem
    exact List.mem_of_mem_filter mem
  have supply : ∀ k, overlay (y.basis.map u.buffer) k = overlay (y.basis.map s.buffer) k := overlay_map_congr fun b mem => by
    obtain ⟨n, e⟩ := h.buffers b (member b mem)
    rw [e]
    exact ⟨rfl, rfl⟩
  have covered : (∃ b ∈ y.basis, covers (s.definition x.region) (u.buffer b).mask = true ∧ (u.buffer b).preTorn = false) ↔
      ∃ b ∈ y.basis, covers (s.definition x.region) (s.buffer b).mask = true ∧ (s.buffer b).preTorn = false := by
    refine exists_congr fun b => and_congr_right fun mem => ?_
    obtain ⟨n, e⟩ := h.buffers b (member b mem)
    rw [e]
  obtain ⟨region, record, hbasis, version, torn, startTime, fill, supplied, image⟩ := just
  rw [entry] at version torn
  rw [defn] at torn fill supplied image
  simp only [supply] at fill supplied image
  exact ⟨region, record, hbasis.trans basis, version, torn.trans (if_congr covered rfl rfl), startTime.trans h.timebase, fill, supplied, image⟩

/-- Forming a piece again opens the same view, seen from a state with the same closed updates and the same port. -/
theorem State.Reforms.seen {t : State} (h : u.Reforms p r n x v t) (basis : s.SameBasis u) (port : u.port p = s.port p) :
    s.JustOpened x (t.view p v) ∧
      (FilledFor (t.view p v) x n → (t.port p).queue = [] ∧ (t.port p).responses = (s.port p).responses ++
        [⟨worst ((s.port p).service.outcomes ++ [(s.viewResponse x n (t.view p v)).status]),
          (s.port p).service.words ++ (s.viewResponse x n (t.view p v)).data⟩]) ∧
      (¬ FilledFor (t.view p v) x n →
        t.port p = { s.port p with service := { (s.port p).service with piece := some ⟨n, some x, .onView v⟩ } }) ∧
      (¬(FilledFor (t.view p v) x n ∧ s.Releases x n) → (t.view p v).state ≠ .free) := by
  have answered := h.answered
  have waits := h.waits
  have stays := h.stays
  rw [port, State.viewResponse_congr basis.regions] at answered
  rw [port] at waits
  rw [State.releases_congr basis.regions] at stays
  exact ⟨basis.justOpened h.just, answered, waits, stays⟩

theorem View.ofRecord_iff {y : View} {k : RegionId} {m : Nat} : y.ofRecord k m = true ↔ y.state ≠ .free ∧ y.region = k ∧ y.record = m := by
  unfold View.ofRecord
  simp [and_assoc]

/-- A port at rest whose piece awaits a view has none to open: its views are all CAPTURING (05 R87, R88). -/
theorem State.ViewsLawful.capturing_of_awaits (lawful : s.ViewsLawful) (rest : s.AtRest) (queue : (s.port p).queue = [r]) {y : Piece}
    (piece : (s.port p).service.piece = some y) (wait : y.wait = .forView) (w : ViewIx) : (s.view p w).state = .capturing := by
  have still := rest.still p
  have none : s.viewToOpen p = none := by
    unfold State.canAdvance at still
    rw [queue, piece] at still
    simpa [wait] using still
  unfold State.viewToOpen at none
  split at none
  · cases none
  · next free =>
    have busy := List.find?_eq_none.1 free w (mem_allViews w)
    have held := List.find?_eq_none.1 none w ((lawful.use_iff p w).2 fun e => busy (decide_eq_true e))
    cases state : (s.view p w).state with
    | free => exact absurd (decide_eq_true state) busy
    | capturing => rfl
    | held => exact absurd (decide_eq_true state) held

/-! ### The piece that waits on the view (05 R96, R98, R102) -/

variable {tr : Transaction} {f : List Answer → List Answer} {c : Capture} {cs : List Capture} {w : Piece} {l : List Request}

theorem State.viewResponse_getElem (s : State) (x : Spot) (n : Nat) (y : View) {j : Nat} (h : j < (s.viewResponse x n y).data.length) :
    (s.viewResponse x n y).data[j] =
      if (s.definition x.region).versionWord = some (x.offset + j) then y.version.setWidth 32 else cellD y.image (x.offset + j) 0 := by
  have lt : j < n := by
    rw [State.viewResponse, List.length_map, run_length] at h
    exact h
  refine (List.getElem_map ..).trans ?_
  rw [(List.getElem_eq_iff (h := by rw [run_length]; exact lt)).2 (run_getElem? lt)]

theorem State.viewResponse_length (s : State) (x : Spot) (n : Nat) (y : View) : (s.viewResponse x n y).data.length = n := by
  rw [State.viewResponse, List.length_map, run_length]

/-- The capture faults: the piece is answered FAULT with zero words. -/
theorem State.Ends.faultsPiece (h : s.Ends .capture tr (f tr.answers)) (rest : s.AtRest) (front : s.captures = c :: cs)
    (answers : c.answers = tr.answers) (view : c.view = some v) (faulted : (f tr.answers).any Answer.isFault = true)
    (piece : (s.port c.port).service.piece = some w) (wait : w.wait = .onView v) (queue : (s.port c.port).queue = r :: l)
    (whole : (s.port c.port).service.next + w.beats = r.beats) : (s.port c.port).responses ++
      [⟨worst ((s.port c.port).service.outcomes ++ [.fault]),
        if isRead r then (s.port c.port).service.words ++ List.replicate w.beats 0 else []⟩] <+:
          ((s.ended tr f).settle.port c.port).responses := by
  rw [h.reads front answers, if_pos faulted, State.faultCapture_wanted (s := s.idlePort.setCaptures _)
    (c := { c with answers := f tr.answers }) view piece wait]
  generalize hg : State.failedCapture _ _ _ = g
  have ended := State.endCapture_writes (s.idlePort.setCaptures ({ c with answers := f tr.answers } :: cs)) { c with answers := f tr.answers }
  have released := State.releaseView_writes (State.endCapture (s.idlePort.setCaptures ({ c with answers := f tr.answers } :: cs))
    { c with answers := f tr.answers }) c.port v
  generalize hw : State.post _ _ _ _ _ _ = u
  have posted : State.Writes _ _ _ := State.post_writes (g.finishPiece c.port w.beats .fault (List.replicate w.beats 0))
    (.memoryFault (c.first + firstFault (f tr.answers))) c.region c.port c.record
    ((s.idlePort.setCaptures ({ c with answers := f tr.answers } :: cs)).version c.region c.record)
  rw [hw] at posted
  have link := u.mapExecuting_writes Executing.afterCapture
  refine rest.finished (g := g) (link.ports.trans posted.ports) (link.views.trans posted.views) ?_ (fun q ne => ?_) queue whole
  · rw [← hg]
    exact released.ports.trans ended.ports
  · rw [← hg]
    refine ((State.endCapture _ _).releaseView_others c.port v q ne).trans ?_
    rw [ended.views]
    rfl

/-- The capture completes: the piece is answered from the filled view. -/
theorem State.Ends.answersPiece (h : s.Ends .capture tr (f tr.answers)) (rest : s.AtRest) (front : s.captures = c :: cs)
    (answers : c.answers = tr.answers) (view : c.view = some v) (okay : (f tr.answers).any Answer.isFault = false)
    (piece : (s.port c.port).service.piece = some w) (wait : w.wait = .onView v) (spot : w.spot = some x)
    (queue : (s.port c.port).queue = r :: l) (whole : (s.port c.port).service.next + w.beats = r.beats) :
    (s.port c.port).responses ++
      [⟨worst ((s.port c.port).service.outcomes ++ [(s.viewResponse x w.beats (s.filledView c v (f tr.answers))).status]),
        if isRead r then (s.port c.port).service.words ++ (s.viewResponse x w.beats (s.filledView c v (f tr.answers))).data else []⟩] <+:
          ((s.ended tr f).settle.port c.port).responses := by
  rw [h.reads front answers, okay, if_neg Bool.false_ne_true, State.completeCapture_wanted (s := s.idlePort.setCaptures _)
    (c := { c with answers := f tr.answers }) view piece wait spot, State.filledCapture_front, State.answerFromView_response,
    State.setView_view_same]
  have ended := s.captureEnded_writes c cs
  have set := State.setView_writes (s.captureEnded c cs) c.port v (s.filledView c v (f tr.answers))
  rw [State.viewResponse_congr (set.regions.trans ended.regions)]
  generalize hg : State.usedView _ _ _ _ _ = g
  have used := State.usedView_writes ((s.captureEnded c cs).setView c.port v (s.filledView c v (f tr.answers))) c.port v x w.beats
  have others := State.usedView_others ((s.captureEnded c cs).setView c.port v (s.filledView c v (f tr.answers))) c.port v x w.beats
  rw [hg] at used others
  have link := (g.finishPiece c.port w.beats (s.viewResponse x w.beats (s.filledView c v (f tr.answers))).status
    (s.viewResponse x w.beats (s.filledView c v (f tr.answers))).data).mapExecuting_writes Executing.afterCapture
  refine rest.finished (g := g) link.ports link.views (used.ports.trans (set.ports.trans ended.ports)) (fun q ne => ?_) queue whole
  rw [others q ne, ← ended.views]
  exact PerPort.get_set_other _ _ ne

/-- A word of the filled view, byte by byte (05 R96). -/
theorem State.filledView_byte (s : State) (c : Capture) (v : ViewIx) (as : List Answer) {k : Nat} (lt : k < 16) (b : Fin 4) :
    (cellD (s.filledView c v as).image k 0).extractLsb' (8 * b.val) 8 =
      if (c.first ≤ k ∧ k < c.first + as.length) ∧ cellD (s.view c.port v).fill k false = false ∧
          (cellD (s.view c.port v).supplied k 0).getLsbD b.val = false then
        ((as[k - c.first]?).getD .fault).word.extractLsb' (8 * b.val) 8
      else (cellD (s.view c.port v).image k 0).extractLsb' (8 * b.val) 8 := by
  have byte := (fillRun_cells (s.view c.port v) c.first as ⟨k, lt⟩ b).2
  rw [cell_eq_cellD _ _ (0 : Word), cell_eq_cellD _ _ false, cell_eq_cellD _ _ (0 : Marks), cell_eq_cellD _ _ (0 : Word)] at byte
  exact byte

/-! ### The piece that awaits a view (05 R88) -/

theorem State.lowerWaits_count (l : List BufId) (s : State) (b : BufId) : ∃ n, (s.lowerWaits l).buffer b = { s.buffer b with waitCount := n } := by
  induction l generalizing s with
  | nil => exact ⟨_, rfl⟩
  | cons c l ih =>
    obtain ⟨n, e⟩ := ih (s.setBuffer c { s.buffer c with waitCount := (s.buffer c).waitCount - 1 })
    refine ⟨n, e.trans ?_⟩
    rw [State.setBuffer_buffer]
    split
    · next same => rw [same]
    · rfl

/-- The end of a capture leaves its port's view HELD or FREE, and the updates as they are but for their wait counts. -/
theorem State.Ends.opens (h : s.Ends .capture tr (f tr.answers)) (lawful : s.ViewsLawful)
    (front : s.captures = c :: cs) (answers : c.answers = tr.answers) (view : c.view = some v)
    (unwanted : ∀ x, (s.port c.port).service.piece = some x → x.wait ≠ .onView v) :
    s.SameBasis (s.ended tr f) ∧ (s.ended tr f).ports = s.ports ∧
      (∀ q, q ≠ c.port → (s.ended tr f).views.get q = s.views.get q) ∧
      (∀ w, w ≠ v → (s.ended tr f).view c.port w = s.view c.port w) ∧
      (((s.ended tr f).view c.port v).region = (s.view c.port v).region ∧ ((s.ended tr f).view c.port v).record = (s.view c.port v).record) ∧
      (((s.ended tr f).view c.port v).state = .free ∨ ((s.ended tr f).view c.port v).state = .held) := by
  have ended := s.captureEnded_writes c cs
  have basis : ∀ u, (s.captureEnded c cs).Writes [.views, .events, .link] u → s.SameBasis u := fun u k =>
    ⟨k.regions.trans ended.regions, k.versions.trans ended.versions, k.timebase.trans ended.timebase, by
      rw [k.pool]
      exact (State.lowerWaits_keepsUpdates _ c.holdSet).closeOrder, fun b _ => by
      rw [State.buffer_congr k.pool]
      exact State.lowerWaits_count c.holdSet _ b⟩
  cases fault : (f tr.answers).any Answer.isFault with
  | false =>
    rw [h.fills front answers view fault unwanted]
    have set := State.setView_writes (s.captureEnded c cs) c.port v (s.filledView c v (f tr.answers))
    have link := State.mapExecuting_writes ((s.captureEnded c cs).setView c.port v (s.filledView c v (f tr.answers))) Executing.afterCapture
    generalize State.mapExecuting _ _ = u at link
    refine ⟨basis u ((set.seq link).mono (by decide)), link.ports.trans (set.ports.trans ended.ports), fun q ne => ?_, fun w ne => ?_, ?_, .inr ?_⟩
    · rw [link.views, ← ended.views]
      exact PerPort.get_set_other _ _ ne
    · rw [State.view, link.views, ← State.captureEnded_view (c := c) (cs := cs)]
      exact (State.setViews_view _ _ _ _ _).trans ((if_pos rfl).trans (cell_put_other _ _ ne))
    · rw [State.view, link.views]
      have same := (s.captureEnded c cs).setView_view_same c.port v (s.filledView c v (f tr.answers))
      obtain ⟨region, record⟩ := fillRun_fields (s.view c.port v) c.first (f tr.answers)
      exact ⟨(congrArg View.region same).trans region, (congrArg View.record same).trans record⟩
    · rw [State.view, link.views]
      exact congrArg View.state (State.setView_view_same ..)
  | true =>
    rw [h.fails lawful front answers view fault unwanted]
    have free := (s.captureEnded c cs).freeView_writes c.port v
    have post := ((s.captureEnded c cs).freeView c.port v).post_writes (.memoryFault (c.first + firstFault (f tr.answers))) c.region c.port
      c.record (s.version c.region c.record)
    generalize State.post _ _ _ _ _ _ = w at post
    have link := w.mapExecuting_writes Executing.afterCapture
    generalize w.mapExecuting Executing.afterCapture = u at link
    have views := link.views.trans post.views
    refine ⟨basis u ((free.seq (post.seq link)).mono (by decide)), link.ports.trans (post.ports.trans (free.ports.trans ended.ports)),
      fun q ne => ?_, fun w ne => ?_, ?_, .inl ?_⟩
    · rw [views, ← ended.views]
      exact PerPort.get_set_other _ _ ne
    · rw [State.view, views, ← State.captureEnded_view (c := c) (cs := cs)]
      exact (State.freeView_view _ _ _ _ _).trans (if_neg fun e => ne e.2)
    · rw [State.view, views]
      have same := ((s.captureEnded c cs).freeView_view c.port c.port v v).trans (if_pos ⟨rfl, rfl⟩)
      have was : (s.captureEnded c cs).view c.port v = s.view c.port v := State.captureEnded_view ..
      exact ⟨(congrArg View.region same).trans (by rw [← was]), (congrArg View.record same).trans (by rw [← was])⟩
    · rw [State.view, views]
      exact congrArg View.state (((s.captureEnded c cs).freeView_view c.port c.port v v).trans (if_pos ⟨rfl, rfl⟩))

/-- The laws of the view store hold when the capture's transaction has ended. -/
theorem State.Ends.viewsLawful (h : s.Ends .capture tr (f tr.answers)) (lawful : s.ViewsLawful) : (s.ended tr f).ViewsLawful := by
  rw [← State.takeAnswers_ended h.all]
  exact State.viewsLawful_kept.quiet _ _ (.answers s tr f h.outstanding) lawful

end

/-- Settles O31: the waiting piece is answered with the capture's end, and the awaiting piece opens the view that end leaves. -/
theorem aWaitingReadIsAnsweredByItsCapture : Obligations.AWaitingReadIsAnsweredByItsCapture := by
  constructor
  · intro s tr f i e c cs v x spot r l rest front view ends by' answers piece wait at' queue read whole
    dsimp only
    have row := (ends.arrives by').2
    obtain ⟨-, torn, -⟩ := fillRun_kept (s.view c.port v) c.first (f tr.answers)
    obtain ⟨version, -, -⟩ := fillRun_kept (s.view c.port v) c.first (f tr.answers)
    cases fault : (f tr.answers).any Answer.isFault with
    | true =>
      have answered := ends.faultsPiece rest front answers view fault piece wait queue whole
      rw [if_pos read] at answered
      exact ⟨_, _, row, List.length_replicate, answered, fun _ => rfl, nofun⟩
    | false =>
      have answered := ends.answersPiece rest front answers view fault piece wait at' queue whole
      rw [if_pos read] at answered
      have status : (s.viewResponse spot x.beats (s.filledView c v (f tr.answers))).status =
          if (s.view c.port v).torn = .torn then .torn else .okay := by
        rw [← torn]; rfl
      rw [status] at answered
      refine ⟨_, _, row, s.viewResponse_length .., answered, nofun, fun _ j h => ⟨fun word => ?_, fun word lt b => ?_⟩⟩
      · rw [s.viewResponse_getElem spot x.beats _ h, if_pos word, ← version]
        rfl
      · rw [s.viewResponse_getElem spot x.beats _ h, if_neg word]
        exact s.filledView_byte c v (f tr.answers) lt b
  · intro s tr f i e c cs v n spot r rest lawful front view ends by' answers piece queue read inside words whole within writer reader none
    have row := (ends.arrives by').2
    have unwanted : ∀ y, (s.port c.port).service.piece = some y → y.wait ≠ .onView v := fun y e => by
      rw [piece] at e
      obtain rfl := Option.some.inj e
      nofun
    obtain ⟨basis, ports, others, kept, ⟨region, record⟩, state⟩ := ends.opens lawful front answers view unwanted
    have lawful' := ends.viewsLawful lawful
    generalize s.ended tr f = u at *
    have port := State.port_congr ports c.port
    have capturing := lawful.capturing_of_awaits rest queue piece rfl
    have toOpen : u.viewToOpen c.port = some v :=
      lawful'.viewToOpen_only state fun w ne => (congrArg View.state (kept w ne)).trans (capturing w)
    have none' : u.viewOf c.port spot.region spot.record = Option.none := by
      refine List.find?_eq_none.2 fun w mem found => List.find?_eq_none.1 none w mem ?_
      by_cases eq : w = v
      · subst eq
        obtain ⟨-, hregion, hrecord⟩ := View.ofRecord_iff.1 found
        exact View.ofRecord_iff.2 ⟨by rw [capturing w]; nofun, region ▸ hregion, record ▸ hrecord⟩
      · rw [kept w eq] at found
        exact found
    have can : u.canAdvance c.port = true := by
      unfold State.canAdvance
      rw [port, queue, piece, toOpen]
      rfl
    have within' : u.RestWithin r (u.port c.port).service.next spot := fun j lt => by
      rw [port] at lt ⊢
      rw [State.spotOf_congr basis.regions]
      exact within j lt
    have formed := lawful'.reforms (by rw [port]; exact queue) can
      (fun q ne => rest.unmoved (State.port_congr ports q) (others q ne)) read inside words (by rw [port]; exact whole) within'
      (by rw [State.definition_congr basis.regions]; exact writer) (by rw [State.definition_congr basis.regions]; exact reader) none' toOpen
    have done := u.route.completeLong_writes
    have view' : u.settle.view c.port v = u.route.view c.port v :=
      congrArg (fun y : PerPort PortViews => cell (y.get c.port).views v) done.views
    have port' : u.settle.port c.port = u.route.port c.port := State.port_congr done.ports _
    refine ⟨_, row, ?_⟩
    rw [view', port']
    exact formed.seen basis port

end Sys2Proof.Machine

/-! SUPPORT. What long commands await (01 R11, R12; 02 R41; 08 R153): a region that is not ACTIVE gets no new update, so the commit that
frees its last buffer completes RETIRE; the ends of captures and commits complete FLUSH PORT and RESTART. -/

namespace Sys2Proof.Machine

/-! ### What the update controller leaves alone (03 R48, R49, R56) -/

/-- From one state to another no update of these regions is new: no buffer opens for one, and no write of one is held; and what is CLOSED or
COMMITTING keeps its state and its bytes. -/
structure State.NoneNew (R : RegionId → Prop) (s t : State) : Prop where
  busy : ∀ b, (t.buffer b).state ≠ .free → R (t.buffer b).region →
    (s.buffer b).state ≠ .free ∧ (s.buffer b).region = (t.buffer b).region
  gathering : ∀ b, (t.buffer b).state = .gathering → R (t.buffer b).region → (s.buffer b).state = .gathering
  holds : ∀ h ∈ t.pool.holds, R h.spot.region → h ∈ s.pool.holds
  closed : ∀ b, (s.buffer b).state = .closed ∨ (s.buffer b).state = .committing →
    ∃ n m, t.buffer b = { s.buffer b with waitCount := n, preTorn := m }

section
variable {s t u : State} {R : RegionId → Prop} {p : Port}

namespace State.NoneNew

theorem refl (s : State) : s.NoneNew R s := ⟨fun _ n _ => ⟨n, rfl⟩, fun _ g _ => g, fun _ m _ => m, fun _ _ => ⟨_, _, rfl⟩⟩

theorem trans (h : s.NoneNew R t) (k : t.NoneNew R u) : s.NoneNew R u where
  busy b n e := by
    obtain ⟨n', e'⟩ := k.busy b n e
    obtain ⟨n'', e''⟩ := h.busy b n' (e' ▸ e)
    exact ⟨n'', e''.trans e'⟩
  gathering b g e := by
    obtain ⟨-, e'⟩ := k.busy b (by rw [g]; nofun) e
    exact h.gathering b (k.gathering b g e) (e' ▸ e)
  holds y m e := h.holds y (k.holds y m e) e
  closed b c := by
    obtain ⟨n, m, e⟩ := h.closed b c
    obtain ⟨n', m', e'⟩ := k.closed b (by rw [e]; exact c)
    exact ⟨n', m', by rw [e', e]⟩

theorem of_keeps (k : s.KeepsUpdates t) : s.NoneNew R t where
  busy b n _ := by rw [k.state] at n; exact ⟨n, (k.region b).symm⟩
  gathering b g _ := by rwa [k.state] at g
  holds y m _ := by rwa [k.holds] at m
  closed b _ := k.buffer b

theorem of_writes {fs : List Field} (w : s.Writes fs t) (n : Field.pool ∉ fs := by decide) : s.NoneNew R t := .of_keeps (.of_writes w n)

/-- One buffer is written that was GATHERING: its region stands. -/
theorem of_gathering {b : BufId} {x : Buffer} (g : (s.buffer b).state = .gathering)
    (buffer : ∀ c, t.buffer c = if c = b then x else s.buffer c) (region : x.region = (s.buffer b).region) (holds : t.pool.holds = s.pool.holds) : s.NoneNew R t where
  busy c n _ := by
    rw [buffer] at n ⊢
    split
    · next e => exact ⟨by rw [e, g]; nofun, by rw [e, region]⟩
    · next ne => rw [if_neg ne] at n; exact ⟨n, rfl⟩
  gathering c h _ := by
    rw [buffer] at h
    split at h
    · next e => rw [e]; exact g
    · exact h
  holds y m _ := by rwa [holds] at m
  closed c k := by
    rw [buffer, if_neg fun e => by rw [e, g] at k; obtain k | k := k <;> cases k]
    exact ⟨_, _, rfl⟩

theorem foldl {α : Type} {g : State → α → State} {l : List α} (each : ∀ (s : State), ∀ a ∈ l, s.NoneNew R (g s a)) (s : State) :
    s.NoneNew R (l.foldl g s) := by
  induction l generalizing s with
  | nil => exact .refl s
  | cons a l ih => exact (each s a List.mem_cons_self).trans (ih (fun s b m => each s b (List.mem_cons_of_mem _ m)) _)

end State.NoneNew

theorem State.closeBuffer_noneNew {b : BufId} (g : (s.buffer b).state = .gathering) : s.NoneNew R (s.closeBuffer b) :=
  .of_gathering g (s.closeBuffer_buffer b) rfl rfl

theorem State.freeGathering_noneNew {b : BufId} (g : (s.buffer b).state = .gathering) : s.NoneNew R (s.freeGathering b) :=
  .of_gathering g (s.freeGathering_buffer b) rfl rfl

theorem State.stageIn_noneNew {b : BufId} (g : (s.buffer b).state = .gathering) (x : Spot) (ws : List WriteWord) :
    s.NoneNew R (s.stageIn b x ws) := by
  have staged : s.NoneNew R (s.setBuffer b (stageWords (s.buffer b) x.offset ws)) :=
    .of_gathering g (fun c => s.setBuffer_buffer b c _) (stageWords_region ..) rfl
  unfold State.stageIn
  dsimp only
  split
  · refine staged.trans (State.closeBuffer_noneNew ?_)
    rw [State.setBuffer_buffer_same, stageWords_state, g]
  · exact staged

theorem State.openBuffer_noneNew {x : Spot} (other : ¬ R x.region) {b : BufId} (free : (s.buffer b).state = .free) :
    s.NoneNew R (s.openBuffer p x b) where
  busy c n e := by
    rw [s.openBuffer_buffer] at n e ⊢
    split at e
    · exact absurd e other
    · next ne => rw [if_neg ne] at n ⊢; exact ⟨n, rfl⟩
  gathering c g e := by
    rw [s.openBuffer_buffer] at g e
    split at e
    · exact absurd e other
    · next ne => rwa [if_neg ne] at g
  holds y m _ := m
  closed c k := by
    rw [s.openBuffer_buffer, if_neg fun e => by rw [e, free] at k; obtain k | k := k <;> cases k]
    exact ⟨_, _, rfl⟩

theorem State.openUpdate_noneNew {x : Spot} (other : ¬ R x.region) (ws : List WriteWord) : s.NoneNew R (s.openUpdate p x ws) := by
  cases h : s.freeBuffer with
  | none =>
    unfold State.openUpdate
    rw [h]
    exact .refl s
  | some b =>
    rw [State.openUpdate_eq h]
    exact (State.openBuffer_noneNew other (s.freeBuffer_eq_some h)).trans (State.stageIn_noneNew (s.openBuffer_gatherings ..) x ws)

theorem State.finishPiece_noneNew (n : Nat) (st : Status) (ws : List Word) : s.NoneNew R (s.finishPiece p n st ws) :=
  .of_writes (s.finishPiece_writes ..)

theorem State.dropHold_noneNew (s : State) (h : HeldWrite) : s.NoneNew R (s.setPool { s.pool with holds := s.pool.holds.erase h }) :=
  ⟨fun _ n _ => ⟨n, rfl⟩, fun _ g _ => g, fun _ m _ => List.mem_of_mem_erase m, fun _ _ => ⟨_, _, rfl⟩⟩

theorem State.examineHold_noneNew {h : HeldWrite} (other : ¬ R h.spot.region) : s.NoneNew R (s.examineHold h) := by
  unfold State.examineHold
  split
  · exact ((s.dropHold_noneNew h).trans (State.openUpdate_noneNew other _)).trans (State.finishPiece_noneNew ..)
  · exact .refl s

theorem State.examineHolds_noneNew (others : ∀ h ∈ s.pool.holds, ¬ R h.spot.region) : s.NoneNew R s.examineHolds :=
  .foldl (fun _ h m => State.examineHold_noneNew (others h m)) s

theorem State.examineIf_noneNew (others : ∀ h ∈ s.pool.holds, ¬ R h.spot.region) (left : Bool) : s.NoneNew R (s.examineIf left) := by
  unfold State.examineIf
  split
  · exact State.examineHolds_noneNew others
  · exact .refl s

theorem State.earlyClose_noneNew (lawful : s.PoolLawful) : s.NoneNew R (s.earlyClose p) := by
  unfold State.earlyClose
  split
  · exact .refl s
  · next b l e => exact State.closeBuffer_noneNew ((lawful.gathering_iff p b).1 (by rw [e]; exact List.mem_cons_self)).1

theorem State.holdPiece_noneNew {x : Spot} (other : ¬ R x.region) (ws : List WriteWord) : s.NoneNew R (s.holdPiece p x ws) := by
  have held : s.NoneNew R (s.setPool { s.pool with holds := s.pool.holds ++ [⟨p, x, ws, s.timebase⟩] }) := by
    refine ⟨fun _ n _ => ⟨n, rfl⟩, fun _ g _ => g, fun y m e => (List.mem_append.1 m).resolve_right fun last => other ?_,
      fun _ _ => ⟨_, _, rfl⟩⟩
    rw [List.mem_singleton.1 last] at e
    exact e
  exact held.trans (.of_writes (State.awaitPiece_writes ..))

theorem State.NoneNew.no_holds (h : s.NoneNew R t) (none : ∀ y ∈ s.pool.holds, ¬ R y.spot.region) :
    ∀ y ∈ t.pool.holds, ¬ R y.spot.region := fun y m e => none y (h.holds y m e) e

theorem State.NoneNew.examines (h : s.NoneNew R t) (others : ∀ y ∈ s.pool.holds, ¬ R y.spot.region) (left : Bool) :
    s.NoneNew R (t.examineIf left) := h.trans (State.examineIf_noneNew (h.no_holds others) left)

theorem State.exhausted_noneNew (lawful : s.PoolLawful) (others : ∀ h ∈ s.pool.holds, ¬ R h.spot.region) {x : Spot}
    (other : ¬ R x.region) (a : Word) (ws : List WriteWord) : s.NoneNew R (s.exhausted p x a ws) := by
  have posted : s.NoneNew R (s.postExhausted p x) := .of_writes (s.postExhausted_writes p x)
  rw [s.exhausted_eq]
  split
  · exact ((posted.trans (.of_keeps (State.tearThrough_keepsUpdates ..))).trans (.of_writes (State.setPlainRequest_writes ..))).trans
      (.of_writes (State.awaitPiece_writes ..))
  · exact posted.trans (State.finishPiece_noneNew ..)
  · have held := (posted.trans (State.earlyClose_noneNew (p := p) (lawful.writes (s.postExhausted_writes p x)))).trans
      (State.holdPiece_noneNew (p := p) other ws)
    exact held.trans (State.examineHolds_noneNew (held.no_holds others))

theorem State.stagePiece_noneNew (lawful : s.PoolLawful) (others : ∀ h ∈ s.pool.holds, ¬ R h.spot.region) {x : Spot}
    (other : ¬ R x.region) (a : Word) (ws : List WriteWord) : s.NoneNew R (s.stagePiece p x a ws) := by
  unfold State.stagePiece
  dsimp only
  split
  · exact State.finishPiece_noneNew ..
  · split
    · next b h => exact ((State.stageIn_noneNew (s.gatheringOf_eq_some h).1 x _).trans (State.finishPiece_noneNew ..)).examines others _
    · split
      · exact ((State.openUpdate_noneNew other _).trans (State.finishPiece_noneNew ..)).examines others _
      · exact State.exhausted_noneNew lawful others other a _

theorem State.handPiece_noneNew (lawful : s.PoolLawful) (others : ∀ h ∈ s.pool.holds, ¬ R h.spot.region) {x : Option Spot}
    (other : ∀ y, x = some y → ¬ R y.region) (w : Request) (k n : Nat) : s.NoneNew R (s.handPiece p w k n x) := by
  unfold State.handPiece
  split
  · exact .of_writes (s.plainPiece_writes ..)
  · dsimp only
    split
    · split
      · exact .of_writes (s.readOwn_writes ..)
      · exact State.stagePiece_noneNew lawful others (other _ rfl) ..
    · split
      · split
        · exact .of_keeps (s.viewPiece_keepsUpdates ..)
        · exact .of_writes (s.plainPiece_writes ..)
      · exact .of_writes (s.foreignWrite_writes ..)

/-- The routers form no update of a region that is not ACTIVE (01 R6, 03 R45). -/
theorem State.advance_noneNew (lawful : s.PoolLawful) (inactive : ∀ r, R r → (s.region r).state ≠ .active)
    (others : ∀ h ∈ s.pool.holds, ¬ R h.spot.region) : s.NoneNew R (s.advance p) := by
  unfold State.advance
  split
  · exact .refl s
  · dsimp only
    split
    · exact .of_writes (s.respond_writes ..)
    · split
      · exact State.finishPiece_noneNew ..
      · exact State.handPiece_noneNew lawful others (fun y e region => inactive _ region (State.spotOf_active e)) ..

theorem Moves.noneNew (m : Moves s t) (lawful : s.PoolLawful) (inactive : ∀ r, R r → (s.region r).state ≠ .active)
    (others : ∀ h ∈ s.pool.holds, ¬ R h.spot.region) : s.NoneNew R t :=
  (m.keeps (P := fun v => v.PoolLawful ∧ (∀ r, R r → (v.region r).state ≠ .active) ∧ s.NoneNew R v)
    (fun v n ⟨l, i, k⟩ => ⟨l.writes (v.setChoices_writes n), i, k.trans (.of_writes (v.setChoices_writes n))⟩)
    (fun v q can ⟨l, i, k⟩ => ⟨State.poolLawful_kept.quiet _ _ (.advance v q can) l, fun r h => by
      rw [State.region, (v.advance_writes q).regions]; exact i r h,
      k.trans (State.advance_noneNew l i (k.no_holds others))⟩) ⟨lawful, inactive, .refl s⟩).2.2

/-- The buffer the engine takes was CLOSED, and it keeps its region (04 R70). -/
theorem State.takeCommit_busy_iff (s : State) (b : BufId) : ((s.takeCommit.buffer b).state ≠ .free ↔ (s.buffer b).state ≠ .free) ∧
    (s.takeCommit.buffer b).region = (s.buffer b).region := by
  obtain same | ⟨closed, same⟩ := (s.takeCommit_leaves b).1
  · rw [same]; exact ⟨Iff.rfl, rfl⟩
  · rw [same, closed]; exact ⟨⟨fun _ => nofun, fun _ => nofun⟩, rfl⟩

theorem State.takeCommit_holds (s : State) : s.takeCommit.pool.holds = s.pool.holds := by
  obtain same | ⟨b, job, -, -, -, -, same⟩ := s.takeCommit_cases
  · rw [same]
  · rw [same]; rfl

end

/-! ### The link's command when what it awaits has come about (08 R145) -/

section
variable {s t u : State} {tr : Transaction} {f : List Answer → List Answer} {i : Instr} {k : Cause} {e : Executing}

theorem State.mapExecuting_link (h : s.link.state = .executing e) (g : Executing → Executing) :
    (s.mapExecuting g).link.state = .executing (g e) := by
  unfold State.mapExecuting
  rw [h]
  rfl

theorem State.executes_of_executing (h : s.link.state = .executing e) : s.executes e.command = true := by
  unfold State.executes
  rw [h]
  exact decide_eq_true rfl

theorem State.executes_of_result {out : List Byte} {n : Nat} (h : s.link.state = .result out n) (c : LongCommand) :
    s.executes c = false := by
  unfold State.executes
  rw [h]

/-- The completion's own row is the arrival's step, in which the command ends (log 5). -/
theorem State.completing_eq (h : s.link.state = .executing e) (arrives : s.arrive k = t) {out : List Byte} {n : Nat}
    (result : t.link.state = .result out n) : s.completing e.command k = t := by
  unfold State.completing
  rw [arrives, State.executes_of_executing h, State.executes_of_result result]
  rfl

theorem State.route_link (u : State) : u.route.link = u.link ∧ u.route.regions = u.regions := ⟨u.route_moves.outside.link, u.route_moves.outside.regions⟩

/-- The end of a reading capture's transaction reaches the command that executes (02 R41, 08 R153). -/
theorem State.Ends.capture_link (h : s.Ends .capture tr (f tr.answers)) (some' : s.captures ≠ []) (executing : s.link.state = .executing e) :
    (s.ended tr f).link.state = .executing e.afterCapture ∧ (s.ended tr f).regions = s.regions := by
  obtain ⟨c, cs, front⟩ := List.exists_cons_of_ne_nil some'
  rw [State.ended_capture h.requester h.kept front]
  unfold State.endRead
  rw [State.setCaptures_captures]
  dsimp only
  split
  · have w := State.faultCapture_writes (s.idlePort.setCaptures ({ c with answers := f c.answers } :: cs)) { c with answers := f c.answers }
    exact ⟨State.mapExecuting_link (by rw [w.link]; exact executing) _, (State.mapExecuting_writes ..).regions.trans w.regions⟩
  · have w := State.completeCapture_writes (s.idlePort.setCaptures ({ c with answers := f c.answers } :: cs)) { c with answers := f c.answers }
    exact ⟨State.mapExecuting_link (by rw [w.link]; exact executing) _, (State.mapExecuting_writes ..).regions.trans w.regions⟩

theorem State.freedCommit_link (job : CommitJob) (executing : s.link.state = .executing e) :
    (s.freedCommit job).link.state = .executing (e.afterCommit (s.buffer job.buffer).region) := by
  have settled := ((s.settledCommit_writes job).seq (State.freeCommitted_writes _ job.buffer)).link
  unfold State.freedCommit
  rw [State.setEngine_link]
  exact State.mapExecuting_link (by rw [settled]; exact executing) _

/-- The end of a commit's transaction reaches the command that executes (01 R11, 08 R153). -/
theorem State.Ends.commit_link {job : CommitJob} (h : s.Ends .commit tr (f tr.answers)) (writing : s.engine = .writing job)
    (executing : s.link.state = .executing e) :
    (s.ended tr f).link.state = .executing (e.afterCommit (s.buffer job.buffer).region) ∧ (s.ended tr f).regions = s.regions := by
  rw [State.ended_commit h.requester h.kept writing]
  have told : s.idlePort.setEngine (.writing { job with answers := f job.answers }) = s.commitEnded job f := rfl
  rw [told]
  have w := State.completeCommit_writes (s.commitEnded job f) { job with answers := f job.answers }
  refine ⟨?_, w.regions.trans (rfl : (s.commitEnded job f).regions = s.regions)⟩
  rw [State.completeCommit_eq]
  have rest := ((State.examineHolds_writes ((s.commitEnded job f).freedCommit { job with answers := f job.answers })).seq
    (State.takeCommit_writes _)).link
  rw [rest]
  exact State.freedCommit_link (s := s.commitEnded job f) { job with answers := f job.answers } executing

/-- A command whose arrival leaves it nothing to await completes in that step: the arrival's row and the completion's are one. -/
theorem State.EndsBy.completes (h : s.EndsBy tr i k f) (out : s.mem.outstanding = some tr) (all : allAnswered (f tr.answers) = true)
    (executing : s.link.state = .executing e) {data : List Byte} (ends : (s.ended tr f).route.completeLong.link.state =
      .result (resultBytes .done data) 0) : s.completing e.command k = (s.ended tr f).settle ∧ exec i s = .next (s.ended tr f).settle := by
  obtain ⟨arrives, row⟩ := h.arrives out all
  exact ⟨State.completing_eq executing arrives ends, row⟩

theorem State.completeLong_retire {r : RegionId} {a c v : Nat} (h : s.link.state = .executing (.retire r a c v))
    (idle : s.regionIdle r = true) :
    s.completeLong = (s.setRegionState r .defined).formResult .done [byteOf a, byteOf c, byteOf v] := by
  unfold State.completeLong
  rw [h]
  exact if_pos idle

theorem State.completeLong_flushPort {a v : Nat} (h : s.link.state = .executing (.flushPort a v false)) :
    s.completeLong = s.formResult .done [byteOf a, byteOf v] := by
  unfold State.completeLong
  rw [h]
  rfl

theorem State.completeLong_restart {g c v n : Nat} (h : s.link.state = .executing (.restart g c v n false false)) :
    s.completeLong = s.formResult .done [byteOf g, byteOf c, byteOf v, byteOf n] := by
  unfold State.completeLong
  rw [h]
  rfl

theorem State.regionIdle_iff {r : RegionId} : s.regionIdle r = true ↔ ∀ b, (s.buffer b).state ≠ .free → (s.buffer b).region ≠ r := by
  rw [← Bool.not_eq_false, State.regionIdle_eq_false]
  push Not
  exact Iff.rfl

/-- The commit that frees the last buffer of a region that is not ACTIVE leaves it idle to the end of the step (01 R12; 04 R79). -/
theorem State.Ends.drains {job : CommitJob} {r : RegionId} (h : s.Ends .commit tr (f tr.answers)) (writing : s.engine = .writing job)
    (lawful : s.PoolLawful) (inactive : (s.region r).state ≠ .active)
    (last : ∀ b, b ≠ job.buffer → (s.buffer b).state = .free ∨ (s.buffer b).region ≠ r)
    (others : ∀ h ∈ s.pool.holds, h.spot.region ≠ r) : (s.ended tr f).route.regionIdle r = true := by
  have lawful' : (s.ended tr f).PoolLawful := by
    rw [← State.takeAnswers_ended h.all]
    exact State.poolLawful_kept.quiet _ _ (.answers s tr f h.outstanding) lawful
  rw [State.ended_commit h.requester h.kept writing] at lawful' ⊢
  have told : s.idlePort.setEngine (.writing { job with answers := f job.answers }) = s.commitEnded job f := rfl
  rw [told] at lawful' ⊢
  have freed : ∀ b, (((s.commitEnded job f).freedCommit { job with answers := f job.answers }).buffer b).state ≠ .free →
      (((s.commitEnded job f).freedCommit { job with answers := f job.answers }).buffer b).region ≠ r := fun b n => by
    rw [State.freedCommit_buffer] at n ⊢
    split at n
    · exact absurd rfl n
    · next ne =>
      rw [if_neg ne]
      have kept := State.settleRecord_keepsUpdates (s.commitEnded job f) job.buffer
        (CommitJob.faulted { job with answers := f job.answers })
      rw [kept.state] at n
      rw [kept.region]
      exact (last b ne).resolve_left n
  have holds := State.freedCommit_holds (s.commitEnded job f) { job with answers := f job.answers }
  have w := State.completeCommit_writes (s.commitEnded job f) { job with answers := f job.answers }
  rw [State.completeCommit_eq] at lawful' w ⊢
  generalize (s.commitEnded job f).freedCommit { job with answers := f job.answers } = u at *
  have none : ∀ y ∈ u.pool.holds, y.spot.region ≠ r := by rw [holds]; exact others
  have examined : u.NoneNew (· = r) u.examineHolds := State.examineHolds_noneNew none
  have routed : u.examineHolds.takeCommit.NoneNew (· = r) u.examineHolds.takeCommit.route :=
    (State.route_moves _).noneNew lawful' (fun q e => by
      rw [e, State.region, w.regions]
      exact inactive) (by rw [State.takeCommit_holds]; exact examined.no_holds none)
  exact State.regionIdle_iff.2 fun b n e => by
    obtain ⟨n', e'⟩ := routed.busy b n e
    obtain ⟨busy, region⟩ := u.examineHolds.takeCommit_busy_iff b
    obtain ⟨n'', e''⟩ := examined.busy b (busy.1 n') ((region.symm.trans e').trans e)
    exact freed b n'' (e''.trans ((region.symm.trans e').trans e))

end

/-- Settles O45: each arrival reaches the command that executes, the routers leave it, and it completes in the step. -/
theorem longCommandsCompleteWithWhatTheyAwait : Obligations.LongCommandsCompleteWithWhatTheyAwait := by
  refine ⟨fun s tr f i k job r n c v rest lawful by' ends writing executing draining region last others => ?_,
    fun s tr f i k n v rest by' ends some' executing => ?_, fun s tr f i k g c v n w x rest by' executing awaited => ?_⟩
  · obtain ⟨link, regions⟩ := ends.commit_link writing executing
    have after : (Executing.retire r n c v).afterCommit (s.buffer job.buffer).region = .retire r n (c + 1) v := by
      rw [region]; exact if_pos rfl
    rw [after, ← congrArg Link.state (s.ended tr f).route_link.1] at link
    have idle := ends.drains writing lawful (r := r) (by rw [draining]; nofun) last others
    have done := State.completeLong_retire link idle
    have regions' := (s.ended tr f).route_link.2.trans regions
    have both := by'.completes ends.outstanding ends.all executing (data := [byteOf n, byteOf (c + 1), byteOf v]) (by rw [done]; rfl)
    obtain ⟨completing, row⟩ := both
    refine ⟨_, congrArg Host.Outcome.next completing, row, ?_⟩
    unfold State.settle
    rw [done]
    generalize (s.ended tr f).route = u at *
    refine ⟨?_, idle, rfl, fun q ne => ?_⟩
    · rw [← State.definition_congr regions']
      exact State.setRegion_region_same ..
    · refine (State.setRegion_region _ r q _).trans ((if_neg ne).trans ?_)
      rw [State.region, regions']
      rfl
  · obtain ⟨link, regions⟩ := ends.capture_link some' executing
    rw [← congrArg Link.state (s.ended tr f).route_link.1] at link
    have done := State.completeLong_flushPort link
    obtain ⟨completing, row⟩ := by'.completes ends.outstanding ends.all executing (data := [byteOf n, byteOf v]) (by rw [done]; rfl)
    refine ⟨_, congrArg Host.Outcome.next completing, row, ?_⟩
    unfold State.settle
    rw [done]
    exact ⟨rfl, (s.ended tr f).route_link.2.trans regions⟩
  · obtain ⟨outstanding, all, link, regions⟩ : s.mem.outstanding = some tr ∧ allAnswered (f tr.answers) = true ∧
        (s.ended tr f).link.state = .executing (.restart g c v n false false) ∧ (s.ended tr f).regions = s.regions := by
      obtain ⟨ends, ⟨job, writing⟩, rfl⟩ | ⟨ends, some', rfl⟩ := awaited
      · obtain ⟨link, regions⟩ := ends.commit_link writing executing
        exact ⟨ends.outstanding, ends.all, link, regions⟩
      · obtain ⟨link, regions⟩ := ends.capture_link some' executing
        exact ⟨ends.outstanding, ends.all, link, regions⟩
    rw [← congrArg Link.state (s.ended tr f).route_link.1] at link
    have done := State.completeLong_restart link
    obtain ⟨completing, row⟩ := by'.completes outstanding all executing (data := [byteOf g, byteOf c, byteOf v, byteOf n])
      (by rw [done]; rfl)
    refine ⟨_, congrArg Host.Outcome.next completing, row, ?_⟩
    unfold State.settle
    rw [done]
    exact ⟨rfl, (s.ended tr f).route_link.2.trans regions⟩

end Sys2Proof.Machine

/-! SUPPORT. The releases and discards of RESTART, FLUSH PORT, RETIRE and the port reset (03 R63 to R66; 05 R103 to R107), as lists of views
and of buffers, and RESTART. -/

namespace Sys2Proof.Machine

/-! ### A list of views released (05 R103) -/

section
variable {s t u : State} {p q : Port} {v w : ViewIx} {l : List (Port × ViewIx)}

theorem State.releaseAndGiveBack_view (s : State) (pv : Port × ViewIx) (q : Port) (w : ViewIx) :
    (s.releaseAndGiveBack pv).view q w = if (q, w) = pv then { s.view q w with state := .free } else s.view q w := by
  have given : ∀ t : State, (t.giveBack pv.1).view q w = t.view q w := fun _ => rfl
  have released : (s.releaseView pv.1 pv.2).view q w = if (q, w) = pv then { s.view q w with state := .free } else s.view q w := by
    obtain ⟨p, v⟩ := pv
    rw [State.releaseView_view]
    by_cases e : q = p ∧ w = v
    · obtain ⟨rfl, rfl⟩ := e
      rw [if_pos ⟨rfl, rfl⟩, if_pos rfl]
    · rw [if_neg e, if_neg fun h => e ⟨congrArg Prod.fst h, congrArg Prod.snd h⟩]
  unfold State.releaseAndGiveBack
  dsimp only
  split
  · exact released
  · split
    · rw [given, released]
    · exact released

theorem State.releaseAll_view (s : State) (l : List (Port × ViewIx)) (q : Port) (w : ViewIx) :
    (s.releaseAll l).view q w = if (q, w) ∈ l then { s.view q w with state := .free } else s.view q w := by
  induction l generalizing s with
  | nil => rfl
  | cons pv l ih =>
    show (State.releaseAll _ l).view q w = _
    rw [ih, State.releaseAndGiveBack_view]
    by_cases here : (q, w) = pv <;> by_cases later : (q, w) ∈ l <;> simp [here, later]

theorem mem_allPortViews (pv : Port × ViewIx) : pv ∈ allPortViews :=
  List.mem_flatMap.2 ⟨pv.1, mem_allPorts _, List.mem_map.2 ⟨pv.2, mem_allViews _, rfl⟩⟩

theorem State.mem_viewsWhere {f : Port → View → Bool} :
    (q, w) ∈ s.viewsWhere f ↔ (s.view q w).state ≠ .free ∧ f q (s.view q w) = true := by
  unfold State.viewsWhere
  rw [List.mem_filter, and_iff_right (mem_allPortViews _), Bool.and_eq_true, bne_iff_ne]

/-- The views that meet a condition go to FREE, and the others stand. -/
theorem State.releaseWhere_view (views : t.views = s.views) (f : Port → View → Bool) (q : Port) (w : ViewIx) :
    (t.releaseAll (s.viewsWhere f)).view q w = if f q (s.view q w) then { s.view q w with state := .free } else s.view q w := by
  rw [State.releaseAll_view, State.view, views]
  show (if _ then { s.view q w with state := .free } else s.view q w) = _
  by_cases meets : f q (s.view q w) = true
  · rw [if_pos meets]
    by_cases free : (s.view q w).state = .free
    · rw [if_neg fun h => (State.mem_viewsWhere.1 h).1 free, ← free]
    · rw [if_pos (State.mem_viewsWhere.2 ⟨free, meets⟩)]
  · rw [if_neg meets, if_neg fun h => meets (State.mem_viewsWhere.1 h).2]

/-- The port's piece waits on one of these views. -/
def State.WaitsIn (s : State) (q : Port) (l : List (Port × ViewIx)) : Prop :=
  ∃ x v, (s.port q).service.piece = some x ∧ x.wait = .onView v ∧ (q, v) ∈ l

theorem State.releaseView_ports (s : State) (p : Port) (v : ViewIx) : (s.releaseView p v).ports = s.ports :=
  (s.releaseView_writes p v).ports

theorem State.giveBack_port (s : State) (p q : Port) : (s.giveBack p).port q =
    if q = p then { s.port p with service := { (s.port p).service with piece := none } } else s.port q := s.setService_port p q _

/-- A release gives back the piece that waits on the view, and no other. -/
theorem State.releaseAndGiveBack_port (s : State) (pv : Port × ViewIx) (q : Port) :
    (¬ s.WaitsIn q [pv] → (s.releaseAndGiveBack pv).port q = s.port q) ∧
      (s.WaitsIn q [pv] → (s.releaseAndGiveBack pv).port q = { s.port q with service := { (s.port q).service with piece := none } }) := by
  obtain ⟨p, v⟩ := pv
  have ports : ∀ q, (s.releaseView p v).port q = s.port q := State.port_congr (s.releaseView_ports p v)
  have waits : s.WaitsIn q [(p, v)] ↔ q = p ∧ ∃ x, (s.port p).service.piece = some x ∧ x.wait = .onView v := by
    constructor
    · rintro ⟨x, w, piece, wait, mem⟩
      obtain ⟨rfl, rfl⟩ := Prod.mk.inj (List.mem_singleton.1 mem)
      exact ⟨rfl, x, piece, wait⟩
    · rintro ⟨rfl, x, piece, wait⟩
      exact ⟨x, v, piece, wait, List.mem_singleton.2 rfl⟩
  rw [waits]
  unfold State.releaseAndGiveBack
  dsimp only
  rw [ports]
  cases piece : (s.port p).service.piece with
  | none => exact ⟨fun _ => ports q, fun ⟨_, x, e, _⟩ => nomatch e⟩
  | some x =>
    dsimp only
    by_cases wait : x.wait = .onView v
    · rw [if_pos wait, State.giveBack_port, ports, ports]
      by_cases e : q = p
      · subst e
        exact ⟨fun n => absurd ⟨rfl, x, rfl, wait⟩ n, fun _ => if_pos rfl⟩
      · exact ⟨fun _ => if_neg e, fun h => absurd h.1 e⟩
    · rw [if_neg wait]
      refine ⟨fun _ => ports q, fun ⟨_, y, e, k⟩ => absurd k ?_⟩
      obtain rfl := Option.some.inj e
      exact wait

theorem State.WaitsIn.congr (h : t.port q = s.port q) : t.WaitsIn q l ↔ s.WaitsIn q l := by
  unfold State.WaitsIn
  rw [h]

theorem State.waitsIn_cons {pv : Port × ViewIx} : s.WaitsIn q (pv :: l) ↔ s.WaitsIn q [pv] ∨ s.WaitsIn q l := by
  unfold State.WaitsIn
  constructor
  · rintro ⟨x, v, piece, wait, mem⟩
    exact (List.mem_cons.1 mem).imp (fun e => ⟨x, v, piece, wait, List.mem_singleton.2 e⟩) fun m => ⟨x, v, piece, wait, m⟩
  · rintro (⟨x, v, piece, wait, mem⟩ | ⟨x, v, piece, wait, mem⟩)
    · exact ⟨x, v, piece, wait, List.mem_cons.2 (.inl (List.mem_singleton.1 mem))⟩
    · exact ⟨x, v, piece, wait, List.mem_cons_of_mem _ mem⟩

theorem State.releaseAll_port_kept (h : ¬ s.WaitsIn q l) : (s.releaseAll l).port q = s.port q := by
  induction l generalizing s with
  | nil => rfl
  | cons pv l ih =>
    rw [State.waitsIn_cons, not_or] at h
    have first := (s.releaseAndGiveBack_port pv q).1 h.1
    exact (ih fun k => h.2 ((State.WaitsIn.congr first).1 k)).trans first

theorem State.releaseAll_port_given (h : s.WaitsIn q l) :
    (s.releaseAll l).port q = { s.port q with service := { (s.port q).service with piece := none } } := by
  induction l generalizing s with
  | nil =>
    obtain ⟨_, _, _, _, mem⟩ := h
    cases mem
  | cons pv l ih =>
    show ((s.releaseAndGiveBack pv).releaseAll l).port q = _
    by_cases here : s.WaitsIn q [pv]
    · have first := (s.releaseAndGiveBack_port pv q).2 here
      refine (State.releaseAll_port_kept ?_).trans first
      rintro ⟨x, v, piece, _⟩
      rw [first] at piece
      cases piece
    · have first := (s.releaseAndGiveBack_port pv q).1 here
      refine (ih ((State.WaitsIn.congr first).2 ((State.waitsIn_cons.1 h).resolve_left here))).trans ?_
      rw [first]

theorem State.ports_ext (h : ∀ q, t.port q = s.port q) : t.ports = s.ports := by
  have u0 : t.ports.u0 = s.ports.u0 := h .u0
  have u1 : t.ports.u1 = s.ports.u1 := h .u1
  have u2 : t.ports.u2 = s.ports.u2 := h .u2
  cases ht : t.ports
  cases hs : s.ports
  rw [ht, hs] at u0 u1 u2
  cases u0; cases u1; cases u2
  rfl

theorem State.releaseAll_ports (h : s.NoPieceNeedsAView) (ports : t.ports = s.ports) : (t.releaseAll l).ports = s.ports := by
  refine State.ports_ext fun q => (State.releaseAll_port_kept ?_).trans (State.port_congr ports q)
  rintro ⟨x, v, piece, wait, -⟩
  rw [State.port_congr ports] at piece
  exact (h q x piece).2 v wait

/-- No capture is new, and each that is left keeps its hold set (05 R103). -/
def State.KeepsHoldSets (s t : State) : Prop := ∀ c ∈ t.captures, ∃ d ∈ s.captures, c.holdSet = d.holdSet

theorem State.KeepsHoldSets.of_captures (h : ∀ c ∈ t.captures, c ∈ s.captures) : s.KeepsHoldSets t := fun c m => ⟨c, h c m, rfl⟩

theorem State.KeepsHoldSets.trans (h : s.KeepsHoldSets t) (k : t.KeepsHoldSets u) : s.KeepsHoldSets u := fun c m => by
  obtain ⟨d, m', e⟩ := k c m
  obtain ⟨d', m'', e'⟩ := h d m'
  exact ⟨d', m'', e.trans e'⟩

theorem State.releaseView_keepsHoldSets (s : State) (p : Port) (v : ViewIx) : s.KeepsHoldSets (s.releaseView p v) := by
  have ends : ∀ (t : State) (c : Capture), t.captures = s.captures → s.KeepsHoldSets (t.endCapture c) := fun t c e =>
    .of_captures fun d m => by
      obtain ⟨-, -, -, captures⟩ := t.endCapture_outside_views c
      rw [captures, e] at m
      exact List.mem_of_mem_erase m
  unfold State.releaseView
  dsimp only
  split
  · exact .of_captures fun _ m => m
  · split
    · exact ends _ _ rfl
    · exact ends _ _ rfl
    · intro c m
      obtain ⟨d, m', rfl⟩ := List.mem_map.1 m
      refine ⟨d, m', ?_⟩
      split <;> rfl

theorem State.releaseAndGiveBack_keepsHoldSets (s : State) (pv : Port × ViewIx) : s.KeepsHoldSets (s.releaseAndGiveBack pv) := by
  have released := s.releaseView_keepsHoldSets pv.1 pv.2
  unfold State.releaseAndGiveBack
  dsimp only
  split
  · exact released
  · split <;> exact released

theorem State.releaseAll_keepsHoldSets (l : List (Port × ViewIx)) (s : State) : s.KeepsHoldSets (s.releaseAll l) := by
  induction l generalizing s with
  | nil => exact .of_captures fun _ m => m
  | cons pv l ih => exact (s.releaseAndGiveBack_keepsHoldSets pv).trans (ih _)

/-- A port that is as it was, no piece of which needs a view, does not move, whatever became of the views. -/
theorem State.AtRest.unneeded_port (rest : s.AtRest) (need : s.NoPieceNeedsAView) (port : t.port q = s.port q) : t.canAdvance q = false := by
  cases queue : (t.port q).queue with
  | nil => exact State.canAdvance_empty queue
  | cons r l =>
    cases piece : (s.port q).service.piece with
    | none =>
      have can := State.canAdvance_ready (s := s) (port ▸ queue) piece
      rw [rest.still q] at can
      cases can
    | some x => exact State.canAdvance_waiting (port ▸ piece) fun wait => absurd wait (need q x piece).1

theorem State.AtRest.unneeded (rest : s.AtRest) (need : s.NoPieceNeedsAView) (ports : t.ports = s.ports) : t.movable = [] :=
  State.movable_eq_nil.2 fun q => rest.unneeded_port need (State.port_congr ports q)

/-- A ready link takes a long command, whose condition may hold by the end of the step (08 R145). -/
theorem exec_long {c : Command} {e : Executing} (ready : s.linkReady) (h : s.carryOut c = (t, .long e)) (link : t.link = s.link) :
    exec (rowOf c) s = .next (t.takes c e).settle := by
  have concluded : (t.setLink { s.link with presented := zeros (8 * frameLength c) }).conclude (.long e) = t.takes c e := by
    unfold State.takes
    rw [link]
    rfl
  rw [exec_rowOf, s.sendCommand_ready c ready, State.execute, State.carryOut_setLink, h, concluded]

end

/-! ### RESTART (03 R66; 04 R83; 05 R107; 07 R135; 08 R152, R153) -/

section
variable {s : State}

/-- RESTART's state before the held writes are examined. -/
def State.restarted (s : State) : State :=
  (s.discardUpdates.releaseAll (s.viewsWhere fun _ _ => true)).setEvents s.events.restarted

theorem State.restarted_writes (s : State) : s.Writes [.pool, .captures, .views, .capture, .ports, .events] s.restarted :=
  (((s.setPool_writes _).seq (State.setCaptures_writes _ _)).seq
    ((State.releaseAll_writes _ _).seq (State.setEvents_writes _ _))).mono (by decide)

theorem State.restarted_buffer (s : State) (c : BufId) : (s.restarted.buffer c).state =
    if (s.buffer c).state = .committing then .committing else .free := by
  have kept := (State.releaseAll_keepsUpdates s.discardUpdates (s.viewsWhere fun _ _ => true)).state c
  have same : s.restarted.buffer c = (s.discardUpdates.releaseAll (s.viewsWhere fun _ _ => true)).buffer c := rfl
  rw [same, kept, State.discardUpdates_buffer]
  cases e : (s.buffer c).state <;> simp [e]

theorem State.restarted_view (s : State) (p : Port) (v : ViewIx) : (s.restarted.view p v).state = .free := by
  have view := State.releaseWhere_view (t := s.discardUpdates) (s := s) rfl (fun _ _ => true) p v
  rw [if_pos rfl] at view
  exact congrArg View.state view

theorem State.restarted_holdSets (s : State) : ∀ c ∈ s.restarted.captures, ∀ b ∈ c.holdSet, (s.buffer b).state ≠ .closed := by
  intro c m b mem
  obtain ⟨d, m', e⟩ := State.releaseAll_keepsHoldSets (s.viewsWhere fun _ _ => true) s.discardUpdates c m
  obtain ⟨d', -, rfl⟩ := List.mem_map.1 m'
  rw [e] at mem
  simpa using (List.mem_filter.1 mem).2

theorem State.restarted_views (lawful : s.ViewsLawful) : s.restarted.ViewsLawful ∧ (∀ p, (s.restarted.views.get p).useList = []) ∧
    ∀ c ∈ s.restarted.captures, c.view = none := by
  have lawful' : s.restarted.ViewsLawful := by
    have acts : Acts False False False s s.restarted := by
      refine Relation.ReflTransGen.trans (.single (.discard s)) ((State.releaseAll_acts ⟨nofun, nofun⟩ (s.viewsWhere fun _ _ => true)).trans ?_)
      exact Acts.other (State.setEvents_writes ..)
    exact acts.keeps (fun _ _ a h => h.act a) lawful
  refine ⟨lawful', fun p => List.eq_nil_iff_forall_not_mem.2 fun v m => (lawful'.use_iff p v).1 m (s.restarted_view p v), fun c m => ?_⟩
  cases view : c.view with
  | none => rfl
  | some v =>
    have capturing := (lawful'.fills c m v view).1
    rw [s.restarted_view] at capturing
    cases capturing

theorem State.restarted_gathering (s : State) (p : Port) : s.restarted.pool.gathering.get p = [] := by
  have kept := (State.releaseAll_keepsUpdates s.discardUpdates (s.viewsWhere fun _ _ => true)).gathering
  have same : s.restarted.pool.gathering = (s.discardUpdates.releaseAll (s.viewsWhere fun _ _ => true)).pool.gathering := rfl
  rw [same, kept]
  cases p <;> rfl

theorem State.restarted_holds (s : State) : s.restarted.pool.holds = s.pool.holds :=
  (State.releaseAll_keepsUpdates s.discardUpdates (s.viewsWhere fun _ _ => true)).holds

theorem EventUnit.restarted_attention (e : EventUnit) : e.restarted.attention = false := by
  have line : e.restarted.attention = attentionOf { e with queue := [], lost := 0, sequence := 0 } := rfl
  rw [line, Bool.eq_false_iff, ne_eq, attentionOf_iff]
  rintro (⟨ev, mem, -⟩ | ⟨lost, -⟩)
  · cases mem
  · exact lost rfl

theorem State.restart_reply (s : State) : s.carryOut .restart = (s.restarted.examineHolds,
    .long (.restart (s.buffersIn .gathering).length (s.buffersIn .closed).length (s.viewsWhere fun _ _ => true).length
      (if s.committing then 1 else 0) s.committing s.anyReading)) := rfl

theorem State.completeLong_waits {g c v n : Nat} {w x : Bool} (h : s.link.state = .executing (.restart g c v n w x))
    (waits : w = true ∨ x = true) : s.completeLong = s := by
  refine State.completeLong_eq_self.2 ⟨fun _ _ e => ?_, fun _ _ _ _ e => ?_, fun _ _ _ e => ?_, fun _ _ _ _ _ _ e => ?_⟩
  all_goals rw [h] at e
  · cases e
  · cases e
  · cases e
  · cases e; exact waits

end

/-- Settles O51: the discards and releases leave the ports, so no router moves; and the link's command waits for the commit in flight and
the reading capture alone. -/
theorem restartDiscardsUncommittedWork : Obligations.RestartDiscardsUncommittedWork := by
  intro s rest ready pool lawful none need
  have reply := s.restart_reply
  rw [State.examineHolds_none _ (s.restarted_holds.trans none)] at reply
  have w := s.restarted_writes
  have ports : s.restarted.ports = s.ports := State.releaseAll_ports (t := s.discardUpdates) need rfl
  obtain ⟨-, useList, unviewed⟩ := State.restarted_views lawful
  have row := exec_long (c := .restart) ready reply w.link
  have released : (s.viewsWhere fun _ _ => true).length = (allPortViews.filter fun pv => (s.view pv.1 pv.2).state ≠ .free).length := by
    unfold State.viewsWhere
    congr 1
    refine List.filter_congr fun pv _ => ?_
    cases (s.view pv.1 pv.2).state <;> rfl
  rw [released] at row
  dsimp only
  generalize hu : s.restarted.takes .restart _ = u at row
  have link : u.link.state = .executing (.restart (s.buffersIn .gathering).length (s.buffersIn .closed).length
      (allPortViews.filter fun pv => (s.view pv.1 pv.2).state ≠ .free).length (if s.committing then 1 else 0) s.committing s.anyReading) := by
    rw [← hu]; rfl
  have still : u.movable = [] := rest.unneeded need (by rw [← hu]; exact ports)
  have settled : u.settle = u.completeLong := by
    unfold State.settle
    rw [u.route_rest still]
  have taken : s.restarted.Writes [.link] u := hu ▸ State.setLink_writes ..
  obtain ⟨final, completes, awaits⟩ : s.restarted.Writes [.link] u.completeLong ∧
      ((s.engine != .idle) = false → s.anyReading = false → u.completeLong.link.state = .result (resultBytes .done
        [byteOf (s.buffersIn .gathering).length, byteOf (s.buffersIn .closed).length,
          byteOf (allPortViews.filter fun pv => (s.view pv.1 pv.2).state ≠ .free).length, 0]) 0) ∧
      ((s.engine != .idle) = true ∨ s.anyReading = true → u.completeLong.link.state = u.link.state) := by
    by_cases waits : (s.engine != .idle) = true ∨ s.anyReading = true
    · rw [State.completeLong_waits link waits]
      refine ⟨taken, fun idle quiet => ?_, fun _ => rfl⟩
      rw [idle, quiet] at waits
      exact absurd waits (by decide)
    · obtain ⟨idle, quiet⟩ := not_or.1 waits
      have idle' : s.committing = false := Bool.eq_false_iff.2 idle
      have quiet' := Bool.eq_false_iff.2 quiet
      rw [idle', quiet'] at link
      rw [State.completeLong_restart link]
      exact ⟨(taken.seq (State.setLink_writes ..)).mono (by decide), fun _ _ => rfl, fun h => absurd h waits⟩
  rw [settled] at row
  generalize u.completeLong = t at *
  have buffer := State.buffer_congr final.pool
  have view : ∀ p v, t.view p v = s.restarted.view p v := fun p v =>
    congrArg (fun x : PerPort PortViews => cell (x.get p).views v) final.views
  have events : t.events = s.events.restarted := final.events
  refine ⟨t, row, fun c => ?_, fun p => ?_, ?_, fun p v => ?_, fun p => ?_, fun c m => ?_, ?_⟩
  · rw [buffer, s.restarted_buffer]
  · rw [final.pool, s.restarted_gathering]
  · rw [final.engine, w.engine]
  · rw [view, s.restarted_view]
  · rw [final.views, useList]
  · rw [final.captures] at m
    exact ⟨unviewed c m, s.restarted_holdSets c m⟩
  · rw [events, final.regions, w.regions, final.versions, w.versions, final.ports, ports, final.timebase, w.timebase, final.outstanding,
      w.outstanding]
    refine ⟨rfl, rfl, rfl, s.events.restarted_attention, rfl, rfl, rfl, rfl, rfl, rfl, rfl, rfl, ?_, completes, fun h => ?_⟩
    · exact (final.arbiter).1.trans (w.arbiter).1
    · rw [awaits h, link]
      rfl

end Sys2Proof.Machine

/-! SUPPORT. FLUSH PORT (02 R40, R41; 03 R64; 05 R105): the port's updates abandoned in the order of its gathering list, its views released,
and its piece formed again. -/

namespace Sys2Proof.Machine

/-! ### A list of updates abandoned (03 R63, R64, R65) -/

section
variable {s t u : State} {p q : Port} {x : AbandonCause} {l : List BufId}

theorem State.abandonEach_writes (x : AbandonCause) (l : List BufId) (s : State) :
    s.Writes [.pool, .events] (l.foldl (State.abandonBuffer · x ·) s) := .foldl (fun s b => s.abandonBuffer_writes x b) l s

theorem State.abandonEach_buffer (x : AbandonCause) (l : List BufId) (s : State) (c : BufId) :
    (l.foldl (State.abandonBuffer · x ·) s).buffer c = if c ∈ l then { s.buffer c with state := .free } else s.buffer c := by
  induction l generalizing s with
  | nil => rfl
  | cons b l ih =>
    have first : (s.abandonBuffer x b).buffer c = if c = b then { s.buffer c with state := .free } else s.buffer c := by
      refine (s.freeGathering_buffer b c).trans ?_
      by_cases e : c = b
      · rw [if_pos e, if_pos e, e]
      · rw [if_neg e, if_neg e]
    rw [List.foldl_cons, ih, first]
    by_cases here : c = b <;> by_cases later : c ∈ l <;> simp [here, later]

theorem State.abandonBuffer_events (s : State) (x : AbandonCause) (b : BufId) : (s.abandonBuffer x b).events =
    s.events.post s.timebase (.updateAbandoned x) (s.buffer b).region (s.buffer b).writer (s.buffer b).record
      (s.version (s.buffer b).region (s.buffer b).record) := rfl

/-- The buffers of an abandonment's events are as they were at the first. -/
theorem State.abandonEach_events (x : AbandonCause) (l : List BufId) (s : State) :
    (l.foldl (State.abandonBuffer · x ·) s).events = s.abandonEvents x l := by
  have each : ∀ (l : List BufId) (t : State), t.timebase = s.timebase → t.regions = s.regions → t.versions = s.versions →
      (∀ b, (t.buffer b).region = (s.buffer b).region ∧ (t.buffer b).record = (s.buffer b).record ∧
        (t.buffer b).writer = (s.buffer b).writer) →
      (l.foldl (State.abandonBuffer · x ·) t).events = l.foldl (fun e b => e.post s.timebase (.updateAbandoned x) (s.buffer b).region
        (s.buffer b).writer (s.buffer b).record (s.version (s.buffer b).region (s.buffer b).record)) t.events := by
    intro l
    induction l with
    | nil => intros; rfl
    | cons b l ih =>
      intro t time regions versions same
      have w := t.abandonBuffer_writes x b
      rw [List.foldl_cons, List.foldl_cons, ih (t.abandonBuffer x b) (w.timebase.trans time) (w.regions.trans regions)
        (w.versions.trans versions) fun c => ?_]
      · congr 1
        obtain ⟨region, record, writer⟩ := same b
        have version : t.version (t.buffer b).region (t.buffer b).record = s.version (s.buffer b).region (s.buffer b).record := by
          rw [region, record]
          unfold State.version State.entry
          rw [versions, State.definition_congr regions]
        rw [State.abandonBuffer_events, version, region, record, writer, time]
      · have first : (t.abandonBuffer x b).buffer c = if c = b then { t.buffer b with state := .free } else t.buffer c :=
          t.freeGathering_buffer b c
        rw [first]
        split
        · next e => rw [e]; exact same b
        · exact same c
  exact each l s rfl rfl rfl fun _ => ⟨rfl, rfl, rfl⟩

/-- Abandoning every update of a port empties its gathering list. -/
theorem State.PoolLawful.abandonAll_gathering (h : s.PoolLawful) (p : Port) (x : AbandonCause) :
    (s.abandonAll p x).pool.gathering = s.pool.gathering.set p [] := by
  have each : ∀ (l : List BufId) (t : State), t.pool.gathering.get p = l → (∀ b ∈ l, (t.buffer b).writer = p) → l.Nodup →
      (l.foldl (State.abandonBuffer · x ·) t).pool.gathering = t.pool.gathering.set p [] := by
    intro l
    induction l with
    | nil =>
      intro t list _ _
      rw [List.foldl_nil]
      conv_lhs => rw [← PerPort.set_get_same t.pool.gathering p, list]
    | cons b l ih =>
      intro t list writer nodup
      have first : (t.abandonBuffer x b).pool.gathering = t.pool.gathering.set p l := by
        refine (t.freeGathering_gathering b).trans ?_
        rw [writer b List.mem_cons_self, list, List.erase_cons_head]
      rw [List.foldl_cons, ih (t.abandonBuffer x b) ?_ (fun c m => ?_) (List.nodup_cons.1 nodup).2, first, PerPort.set_set]
      · rw [first, PerPort.get_set_same]
      · have same : (t.abandonBuffer x b).buffer c = if c = b then { t.buffer b with state := .free } else t.buffer c :=
          t.freeGathering_buffer b c
        rw [same, if_neg fun e : c = b => (List.nodup_cons.1 nodup).1 (e ▸ m)]
        exact writer c (List.mem_cons_of_mem _ m)
  exact each _ s rfl (fun b m => ((h.gathering_iff p b).1 m).2) (h.gathering_nodup p)

theorem State.abandonEach_closeOrder (x : AbandonCause) (l : List BufId) (s : State) :
    (l.foldl (State.abandonBuffer · x ·) s).pool.closeOrder = s.pool.closeOrder ∧
      (l.foldl (State.abandonBuffer · x ·) s).pool.holds = s.pool.holds := by
  induction l generalizing s with
  | nil => exact ⟨rfl, rfl⟩
  | cons b l ih => exact ih (s.abandonBuffer x b)

theorem State.abandonEach_outside (x : AbandonCause) (l : List BufId) (s : State) :
    s.OutsideRouters (l.foldl (State.abandonBuffer · x ·) s) := State.OutsideRouters.foldl (fun s b => s.abandonBuffer_outside x b) l s

/-- Only GATHERING updates are abandoned, so those in close order stand (03 R63, R64, R65). -/
theorem State.PoolLawful.abandons_basis (h : s.PoolLawful) (x : AbandonCause) (gathering : ∀ b ∈ l, (s.buffer b).state = .gathering) :
    s.SameBasis (l.foldl (State.abandonBuffer · x ·) s) := by
  have w := State.abandonEach_writes x l s
  refine ⟨w.regions, w.versions, w.timebase, (s.abandonEach_closeOrder x l).1, fun b m => ?_⟩
  rw [State.abandonEach_buffer, if_neg fun k => ?_]
  · exact ⟨_, rfl⟩
  · have closed := (h.close_iff b).1 m
    rw [gathering b k] at closed
    obtain e | e := closed <;> cases e

end

/-! ### The flushed port -/

section
variable {s t u : State} {p q : Port} {v : ViewIx}

/-- FLUSH PORT's state before the held writes are examined. -/
def State.flushed (s : State) (p : Port) : State := (s.abandonAll p .flush).releaseAll (s.viewsOfPort p)

theorem State.flush_reply {b : Byte} (h : codeOfPort p = b) (s : State) : s.carryOut (.flushPort b) = ((s.flushed p).examineHolds,
    .long (.flushPort (s.pool.gathering.get p).length (s.viewsOfPort p).length (s.readingFor (s.viewsOfPort p)))) := by
  subst h
  cases p <;> rfl

theorem State.flushed_writes (s : State) (p : Port) :
    s.Writes [.pool, .events, .views, .captures, .capture, .ports] (s.flushed p) :=
  ((s.abandonAll_writes p .flush).seq (State.releaseAll_writes _ _)).mono (by decide)

theorem State.flushed_updates (s : State) (p : Port) : (s.abandonAll p .flush).KeepsUpdates (s.flushed p) :=
  State.releaseAll_keepsUpdates ..

theorem State.flushed_events (s : State) (p : Port) : (s.flushed p).events = s.abandonEvents .flush (s.pool.gathering.get p) :=
  (State.releaseAll_writes _ _).events.trans (State.abandonEach_events ..)

theorem State.flushed_holds (s : State) (p : Port) : (s.flushed p).pool.holds = s.pool.holds :=
  (s.flushed_updates p).holds.trans (s.abandonAll_holds p .flush)

theorem State.flushed_view (s : State) (p q : Port) (v : ViewIx) :
    (s.flushed p).view q v = if q = p then { s.view q v with state := .free } else s.view q v := by
  have view := State.releaseWhere_view (t := s.abandonAll p .flush) (s := s) (State.abandonAll_writes ..).views (fun q _ => q = p) q v
  refine view.trans ?_
  simp only [decide_eq_true_eq]

theorem mem_viewsOfPort : (q, v) ∈ s.viewsOfPort p ↔ (s.view q v).state ≠ .free ∧ q = p := by
  rw [State.viewsOfPort, State.mem_viewsWhere, decide_eq_true_eq]

theorem State.viewsOfPort_length (s : State) (p : Port) :
    (s.viewsOfPort p).length = (allViews.filter fun v => (s.view p v).state ≠ .free).length := by
  rw [← List.length_map (f := fun v => (p, v)) (as := allViews.filter _)]
  refine List.Perm.length_eq ((List.perm_ext_iff_of_nodup ?_ ?_).2 fun ⟨q, v⟩ => ?_)
  · unfold State.viewsOfPort State.viewsWhere
    exact (by decide : allPortViews.Nodup).filter _
  · exact ((by decide : allViews.Nodup).filter _).map fun _ _ e => congrArg Prod.snd e
  · rw [mem_viewsOfPort, List.mem_map]
    constructor
    · rintro ⟨busy, rfl⟩
      exact ⟨v, List.mem_filter.2 ⟨mem_allViews v, decide_eq_true busy⟩, rfl⟩
    · rintro ⟨w, mem, e⟩
      obtain ⟨rfl, rfl⟩ := Prod.mk.inj e
      exact ⟨of_decide_eq_true (List.mem_filter.1 mem).2, rfl⟩

theorem State.PoolLawful.gathering_length (h : s.PoolLawful) (p : Port) : (s.pool.gathering.get p).length =
    (allBuffers.filter fun c => (s.buffer c).state = .gathering ∧ (s.buffer c).writer = p).length := by
  refine List.Perm.length_eq ((List.perm_ext_iff_of_nodup (h.gathering_nodup p) ((by decide : allBuffers.Nodup).filter _)).2 fun c => ?_)
  rw [h.gathering_iff, List.mem_filter, and_iff_right (mem_allBuffers c), decide_eq_true_eq]

theorem State.readingFor_viewsOfPort (s : State) (p : Port) : s.readingFor (s.viewsOfPort p) = true ↔
    ∃ c ∈ s.captures, c.state = .reading ∧ c.port = p ∧ ∃ v, c.view = some v ∧ (s.view p v).state ≠ .free := by
  unfold State.readingFor
  rw [List.any_eq_true]
  refine exists_congr fun c => and_congr_right fun _ => ?_
  rw [Bool.and_eq_true, beq_iff_eq, List.any_eq_true]
  refine and_congr_right fun _ => ?_
  constructor
  · rintro ⟨⟨q, v⟩, mem, fills⟩
    obtain ⟨busy, rfl⟩ := mem_viewsOfPort.1 mem
    obtain ⟨port, view⟩ := Capture.fills_iff.1 fills
    exact ⟨port, v, view, busy⟩
  · rintro ⟨port, v, view, busy⟩
    exact ⟨(p, v), mem_viewsOfPort.2 ⟨busy, rfl⟩, Capture.fills_iff.2 ⟨port, view⟩⟩

/-- FLUSH PORT as the step leaves it: executing while its reading capture goes on, else with its result (02 R41). -/
theorem State.settle_flushPort {a n : Nat} {w : Bool} (h : u.link.state = .executing (.flushPort a n w)) :
    u.route.Writes [.link] u.settle ∧ (w = true → u.settle.link.state = .executing (.flushPort a n true)) ∧
      (w = false → u.settle.link.state = .result (resultBytes .done [byteOf a, byteOf n]) 0) := by
  rw [← congrArg Link.state u.route_link.1] at h
  unfold State.settle
  cases w with
  | false =>
    rw [State.completeLong_flushPort h]
    exact ⟨State.setLink_writes .., nofun, fun _ => rfl⟩
  | true =>
    have same : u.route.completeLong = u.route := by
      unfold State.completeLong
      rw [h]
      rfl
    rw [same]
    exact ⟨.refl _ _, fun _ => h, nofun⟩

theorem State.flushed_viewsLawful (lawful : s.ViewsLawful) (p : Port) : (s.flushed p).ViewsLawful :=
  ((State.abandonAll_acts (E := False) (F := False) (G := False) nofun p .flush).trans (State.releaseAll_acts ⟨nofun, nofun⟩ _)).keeps
    (fun _ _ a h => h.act a) lawful

/-- A release changes no update but its wait count (05 R97, R103). -/
theorem State.releaseView_count (s : State) (p : Port) (v : ViewIx) (b : BufId) :
    ∃ n, (s.releaseView p v).buffer b = { s.buffer b with waitCount := n } := by
  have ends : ∀ (t : State) (c : Capture), t.buffer b = s.buffer b → ∃ n, (t.endCapture c).buffer b = { s.buffer b with waitCount := n } :=
    fun t c e => by
      obtain ⟨n, k⟩ := State.lowerWaits_count c.holdSet (t.setCaptures (t.captures.erase c)) b
      refine ⟨n, k.trans ?_⟩
      rw [← e]
      rfl
  unfold State.releaseView
  dsimp only
  split
  · exact ⟨_, rfl⟩
  · split
    · exact ends _ _ rfl
    · exact ends _ _ rfl
    · exact ⟨_, rfl⟩

theorem State.releaseAll_count (l : List (Port × ViewIx)) (s : State) (b : BufId) :
    ∃ n, (s.releaseAll l).buffer b = { s.buffer b with waitCount := n } := by
  induction l generalizing s with
  | nil => exact ⟨_, rfl⟩
  | cons pv l ih =>
    have first : ∃ n, (s.releaseAndGiveBack pv).buffer b = { s.buffer b with waitCount := n } := by
      obtain ⟨n, e⟩ := s.releaseView_count pv.1 pv.2 b
      unfold State.releaseAndGiveBack
      dsimp only
      split
      · exact ⟨n, e⟩
      · split <;> exact ⟨n, e⟩
    obtain ⟨n, e⟩ := first
    obtain ⟨m, k⟩ := ih (s.releaseAndGiveBack pv)
    exact ⟨m, k.trans (by rw [e])⟩

theorem State.flushed_basis (pool : s.PoolLawful) (p : Port) : s.SameBasis (s.flushed p) := by
  have abandoned : s.SameBasis (s.abandonAll p .flush) := pool.abandons_basis .flush fun b m => ((pool.gathering_iff p b).1 m).1
  have w := s.flushed_writes p
  refine ⟨w.regions, w.versions, w.timebase, (s.flushed_updates p).closeOrder.trans abandoned.closeOrder, fun b m => ?_⟩
  obtain ⟨n, e⟩ := abandoned.buffers b m
  obtain ⟨k, e'⟩ := State.releaseAll_count (s.viewsOfPort p) (s.abandonAll p .flush) b
  exact ⟨k, e'.trans (by rw [e])⟩

theorem State.SameBasis.closed (pool : s.PoolLawful) (h : s.SameBasis t) (b : BufId)
    (c : (s.buffer b).state = .closed ∨ (s.buffer b).state = .committing) : ∃ n, t.buffer b = { s.buffer b with waitCount := n } :=
  h.buffers b ((pool.close_iff b).2 c)

/-- The piece that FLUSH PORT gives back or that awaits a view can be formed again: every view of its port is FREE (02 R36; 05 R88). -/
theorem State.flushed_forms {x : Piece} (queue : (s.port p).queue ≠ []) (piece : (s.port p).service.piece = some x)
    (wait : x.wait = .forView ∨ ∃ v, x.wait = .onView v ∧ (s.view p v).state ≠ .free) :
    (s.flushed p).viewToOpen p = some 0 ∧ (s.flushed p).canAdvance p = true ∧
      ((s.flushed p).port p).queue = (s.port p).queue ∧
        ((s.flushed p).port p).service.next = (s.port p).service.next := by
  have free : ∀ v, ((s.flushed p).view p v).state = .free := fun v => by rw [s.flushed_view, if_pos rfl]
  have opens : (s.flushed p).viewToOpen p = some 0 :=
    State.viewToOpen_eq (.inl ⟨free 0, fun w lt => absurd lt (Nat.not_lt_zero _)⟩)
  have port := State.port_congr (s.abandonAll_writes p .flush).ports p
  obtain ⟨r, l, queue'⟩ := List.exists_cons_of_ne_nil queue
  by_cases waits : (s.abandonAll p .flush).WaitsIn p (s.viewsOfPort p)
  · have given : (s.flushed p).port p = _ := State.releaseAll_port_given waits
    rw [port] at given
    refine ⟨opens, State.canAdvance_ready (by rw [given]; exact queue') (by rw [given]), by rw [given], by rw [given]⟩
  · have kept : (s.flushed p).port p = s.port p := (State.releaseAll_port_kept waits).trans port
    refine ⟨opens, ?_, by rw [kept], by rw [kept]⟩
    obtain wait | ⟨v, wait, busy⟩ := wait
    · unfold State.canAdvance
      rw [kept, queue', piece]
      dsimp only
      rw [wait, opens]
      rfl
    · exact absurd ⟨x, v, by rw [port]; exact piece, wait, mem_viewsOfPort.2 ⟨busy, rfl⟩⟩ waits

theorem State.releaseAll_others {l : List (Port × ViewIx)} (apart : ∀ pv ∈ l, pv.1 ≠ q) (s : State) :
    (s.releaseAll l).views.get q = s.views.get q := by
  induction l generalizing s with
  | nil => rfl
  | cons pv l ih =>
    have first : (s.releaseAndGiveBack pv).views.get q = s.views.get q := by
      have released := s.releaseView_others pv.1 pv.2 q (apart pv List.mem_cons_self).symm
      unfold State.releaseAndGiveBack
      dsimp only
      split
      · exact released
      · split <;> exact released
    exact (ih (fun x m => apart x (List.mem_cons_of_mem _ m)) _).trans first

/-- FLUSH PORT leaves every other port, its pieces and its views. -/
theorem State.flushed_others (s : State) (ne : q ≠ p) :
    (s.flushed p).port q = s.port q ∧ (s.flushed p).views.get q = s.views.get q := by
  have w := s.abandonAll_writes p .flush
  constructor
  · refine (State.releaseAll_port_kept ?_).trans (State.port_congr w.ports q)
    rintro ⟨x, v, -, -, mem⟩
    exact ne (mem_viewsOfPort.1 mem).2
  · refine (State.releaseAll_others (fun pv mem => ?_) _).trans (congrArg (fun x => x.get q) w.views)
    rw [(mem_viewsOfPort.1 mem).2]
    exact ne.symm

theorem State.flushed_kept (unneeded : ∀ x, (s.port p).service.piece = some x → ∀ v, x.wait ≠ .onView v) :
    (s.flushed p).ports = s.ports := by
  refine State.ports_ext fun q => ?_
  by_cases e : q = p
  · subst e
    have port := State.port_congr (s.abandonAll_writes q .flush).ports q
    refine (State.releaseAll_port_kept ?_).trans port
    rintro ⟨x, v, piece, wait, -⟩
    rw [port] at piece
    exact unneeded x piece v wait
  · exact (s.flushed_others e).1

end

/-- Settles O50: the port's updates and views are discarded; with no piece that needs a view no router moves, and else the one piece forms
again in the port's view 0. -/
theorem flushPortDiscardsThePortsCoherenceWork : Obligations.FlushPortDiscardsThePortsCoherenceWork := by
  intro s b rest ready pool
  refine ⟨fun bad => ?_, fun p code => ?_⟩
  · refine exec_fails rest ready (c := .flushPort b) ?_
    have none : portOfCode b = Option.none := by
      unfold portOfCode
      rw [if_neg fun e => by rw [e] at bad; exact absurd bad (by decide), if_neg fun e => by rw [e] at bad; exact absurd bad (by decide),
        if_neg fun e => by rw [e] at bad; exact absurd bad (by decide)]
    show s.doFlushPort b = _
    unfold State.doFlushPort
    rw [none]
  have w := s.flushed_writes p
  have examined := (s.flushed p).examineHolds_writes
  have row := exec_long (c := .flushPort b) ready (s.flush_reply code) (examined.link.trans w.link)
  rw [pool.gathering_length, s.viewsOfPort_length] at row
  dsimp only
  generalize (allBuffers.filter fun c => (s.buffer c).state = .gathering ∧ (s.buffer c).writer = p).length = abandoned at row ⊢
  generalize (allViews.filter fun v => (s.view p v).state ≠ .free).length = released at row ⊢
  rw [← s.readingFor_viewsOfPort, Bool.not_eq_true]
  generalize s.readingFor (s.viewsOfPort p) = reading at row ⊢
  generalize hu : (s.flushed p).examineHolds.takes _ _ = u at row
  have taken : (s.flushed p).examineHolds.Writes [.link] u := hu ▸ State.setLink_writes ..
  have link : u.link.state = .executing (.flushPort abandoned released reading) := by rw [← hu]; rfl
  obtain ⟨final, executing, completes⟩ := State.settle_flushPort link
  have basis := State.flushed_basis pool p
  have lawful' : u.PoolLawful :=
    (((State.flushTaken_acts (F := False) (G := False) ⟨fun _ => pool, nofun⟩ p).keeps (fun _ _ a h => h.act trivial a) pool :
      (s.flushed p).examineHolds.PoolLawful)).writes taken
  have outside := u.route_moves.outside
  have closed : (s.flushed p).NoneNew (fun _ => False) u.settle :=
    ((State.examineHolds_noneNew fun _ _ h => h).trans (.of_writes taken)).trans
      ((u.route_moves.noneNew lawful' nofun fun _ _ h => h).trans (.of_writes final))
  have abandoned' := State.abandonEach_outside .flush (s.pool.gathering.get p) s
  have events : u.events = (s.abandonAll p .flush).events :=
    taken.events.trans (examined.events.trans (State.releaseAll_writes _ _).events)
  have requests : s.AnswersRequests u.settle :=
    ((State.AnswersRequests.of_keeps (s.flushTaken_keepsRequests p)).trans (.of_keeps (.of_writes taken))).trans (.settle u)
  refine ⟨_, row, executing, completes, ?_, ?_, ?_, ?_, ?_, ?_, fun k => ?_, fun c h => ?_, requests.number, fun lawful none => ?_⟩
  · rw [final.regions, outside.regions, taken.regions, examined.regions, w.regions]
  · rw [final.engine, outside.engine, taken.engine, examined.engine, w.engine]
  · rw [final.timebase, outside.timebase, taken.timebase, examined.timebase, w.timebase]
  · rw [final.events, outside.watches, events]
    exact abandoned'.watches
  · rw [final.events, outside.queueMask, events]
    exact abandoned'.queueMask
  · rw [final.events, outside.attentionMask, events]
    exact abandoned'.attentionMask
  · rw [final.versions, outside.versions, taken.versions, examined.versions, w.versions]
  · obtain ⟨n, e⟩ := basis.closed pool c h
    obtain ⟨n', m', e'⟩ := closed.closed c (by rw [e]; exact h)
    rw [e', e]
    exact ⟨rfl, rfl, rfl⟩
  · rw [State.examineHolds_none _ ((s.flushed_holds p).trans none)] at taken
    have views : ∀ q, q ≠ p → u.views.get q = s.views.get q := fun q ne =>
      (congrArg (fun x => x.get q) taken.views).trans (s.flushed_others ne).2
    have ports : ∀ q, q ≠ p → u.port q = s.port q := fun q ne => (State.port_congr taken.ports q).trans (s.flushed_others ne).1
    have free : ∀ v, (u.view p v).state = .free := fun v => by
      rw [State.view, taken.views]
      exact (congrArg View.state (s.flushed_view p p v)).trans (by rw [if_pos rfl])
    have lawfulViews : u.ViewsLawful := (State.flushed_viewsLawful lawful p).writes taken
    refine ⟨fun unneeded => ?_, fun n y z x piece beats spot wait queue read words whole inside within writer reader => ?_⟩
    · have kept : u.ports = s.ports := taken.ports.trans (State.flushed_kept fun x piece => (unneeded x piece).2)
      rw [rest.settle_unwanted kept views fun x piece => (unneeded x piece).1]
      have done := u.completeLong_writes
      refine ⟨fun c gathering writer => ?_, ?_, fun v => ?_, ?_, ?_, done.ports.trans kept⟩
      · rw [State.buffer_congr (done.pool.trans taken.pool), (s.flushed_updates p).state]
        refine (congrArg Buffer.state (State.abandonEach_buffer .flush (s.pool.gathering.get p) s c)).trans ?_
        rw [if_pos ((pool.gathering_iff p c).2 ⟨gathering, writer⟩)]
      · rw [done.pool, taken.pool, (s.flushed_updates p).gathering]
        exact pool.abandonAll_gathering p .flush
      · rw [State.view, done.views]
        exact free v
      · rw [done.views]
        exact List.eq_nil_iff_forall_not_mem.2 fun v m => (lawfulViews.use_iff p v).1 m (free v)
      · rw [done.events, taken.events, s.flushed_events]
    · obtain ⟨opens, can, queue', next⟩ := State.flushed_forms (by rw [queue]; nofun) piece wait
      have port := State.port_congr taken.ports p
      rw [← port] at queue' next
      rw [← State.viewToOpen_congr (congrArg (fun x => x.get p) taken.views)] at opens
      rw [← State.canAdvance_congr port (congrArg (fun x => x.get p) taken.views)] at can
      have regions : u.regions = s.regions := taken.regions.trans w.regions
      have none' : u.viewOf p y.region y.record = Option.none := List.find?_eq_none.2 fun v _ found =>
        (View.ofRecord_iff.1 found).1 (free v)
      have formed := lawfulViews.reforms (queue'.trans queue) can (fun q ne => rest.unmoved (ports q ne) (views q ne)) read inside words
        (by rw [next]; exact whole) (fun j lt => by rw [next] at lt ⊢; rw [State.spotOf_congr regions]; exact within j lt)
        (by rw [State.definition_congr regions]; exact writer) (by rw [State.definition_congr regions]; exact reader) none' opens
      have basis' : s.SameBasis u := ⟨regions, taken.versions.trans basis.versions, taken.timebase.trans basis.timebase, by
        rw [taken.pool]; exact basis.closeOrder, fun c m => by rw [State.buffer_congr taken.pool]; exact basis.buffers c m⟩
      constructor
      · rw [State.view, final.views]
        exact basis'.justOpened formed.just
      · rw [final.events, formed.events, taken.events, s.flushed_events]

end Sys2Proof.Machine

/-! SUPPORT. What the routers of the other ports and the examination of their held writes leave of a port that holds no write (02 R26): its
requests, its views, its request to memory, and no update in its name (03 R43). -/

namespace Sys2Proof.Machine

/-- The port is as it was, it holds no write, and every update in its name was there before. -/
structure State.Spared (q : Port) (s t : State) : Prop where
  unheld : t.Unheld q
  port : t.port q = s.port q
  plain : t.mem.plain.get q = s.mem.plain.get q
  views : t.views.get q = s.views.get q
  updates : ∀ b, (t.buffer b).state = .gathering → (t.buffer b).writer = q → (s.buffer b).state = .gathering ∧ (s.buffer b).writer = q

/-- A port that holds no write is as it was. -/
structure State.Spares (q : Port) (s t : State) : Prop where
  spared : s.Unheld q → s.Spared q t

section
variable {s t u g : State} {p q : Port}

namespace State.Spares

theorem refl (q : Port) (s : State) : s.Spares q s := ⟨fun n => ⟨n, rfl, rfl, rfl, fun _ h w => ⟨h, w⟩⟩⟩

theorem trans (h : s.Spares q t) (k : t.Spares q u) : s.Spares q u := by
  refine ⟨fun n => ?_⟩
  have first := h.spared n
  have second := k.spared first.unheld
  refine ⟨second.unheld, second.port.trans first.port, second.plain.trans first.plain, second.views.trans first.views, fun b g w => ?_⟩
  obtain ⟨g, w⟩ := second.updates b g w
  exact first.updates b g w

/-- What leaves each update and the hold list, and writes no other field of the port. -/
theorem of_keeps (k : s.KeepsUpdates t) {fs : List Field} (w : s.Writes fs t) (views : t.views.get q = s.views.get q)
    (ports : Field.ports ∉ fs := by decide) (plain : Field.plain ∉ fs := by decide) : s.Spares q t :=
  ⟨fun n => ⟨fun y m => n y (k.holds ▸ m), State.port_congr (w.ports ports) q, by rw [w.plain plain], views,
    fun b g e => ⟨(k.state b).symm.trans g, (k.writer b).symm.trans e⟩⟩⟩

theorem of_writes {fs : List Field} (w : s.Writes fs t) (ports : Field.ports ∉ fs := by decide) (plain : Field.plain ∉ fs := by decide)
    (pool : Field.pool ∉ fs := by decide) (views : Field.views ∉ fs := by decide) : s.Spares q t :=
  of_keeps (.of_writes w pool) w (by rw [w.views views]) ports plain

/-- Another port is written. -/
theorem setPort (s : State) (ne : q ≠ p) (x : PortState) : s.Spares q (s.setPort p x) :=
  ⟨fun n => ⟨n, s.setPort_port_other x ne, rfl, rfl, fun _ g w => ⟨g, w⟩⟩⟩

theorem setPlainRequest (s : State) (ne : q ≠ p) (x : Option MemRequest) : s.Spares q (s.setPlainRequest p x) :=
  ⟨fun n => ⟨n, rfl, PerPort.get_set_other _ _ ne, rfl, fun _ g w => ⟨g, w⟩⟩⟩

/-- The pool is written, with no update new in the port's name and no write newly held. -/
theorem of_pool {fs : List Field} (w : s.Writes fs t) (holds : ∀ y ∈ t.pool.holds, y ∈ s.pool.holds)
    (updates : ∀ b, (t.buffer b).state = .gathering → (t.buffer b).writer = q → (s.buffer b).state = .gathering ∧ (s.buffer b).writer = q)
    (ports : Field.ports ∉ fs := by decide) (plain : Field.plain ∉ fs := by decide) (views : Field.views ∉ fs := by decide) :
    s.Spares q t :=
  ⟨fun n => ⟨fun y m => n y (holds y m), State.port_congr (w.ports ports) q, by rw [w.plain plain], by rw [w.views views], updates⟩⟩

/-- One buffer is written, that gathers afterwards only as it did before. -/
theorem of_buffer {fs : List Field} (w : s.Writes fs t) {b : BufId} {x : Buffer} (buffer : ∀ c, t.buffer c = if c = b then x else s.buffer c)
    (holds : t.pool.holds = s.pool.holds) (same : x.state = .gathering → x.writer = q → (s.buffer b).state = .gathering ∧ (s.buffer b).writer = q)
    (ports : Field.ports ∉ fs := by decide) (plain : Field.plain ∉ fs := by decide) (views : Field.views ∉ fs := by decide) :
    s.Spares q t := by
  refine of_pool w (fun y m => holds ▸ m) (fun c g e => ?_) ports plain views
  rw [buffer] at g e
  split at g
  · next here =>
    rw [if_pos here] at e
    rw [here]
    exact same g e
  · next there =>
    rw [if_neg there] at e
    exact ⟨g, e⟩

end State.Spares

/-! ### The update controller (03) -/

theorem State.finishPiece_spares (s : State) (ne : q ≠ p) (n : Nat) (st : Status) (ws : List Word) : s.Spares q (s.finishPiece p n st ws) :=
  .setPort s ne _

theorem State.awaitPiece_spares (s : State) (ne : q ≠ p) (n : Nat) (x : Option Spot) (w : Wait) : s.Spares q (s.awaitPiece p n x w) :=
  .setPort s ne _

theorem State.closeBuffer_spares (s : State) (b : BufId) : s.Spares q (s.closeBuffer b) :=
  .of_buffer (s.closeBuffer_writes b) (s.closeBuffer_buffer b) rfl nofun

theorem State.stageIn_spares (s : State) (b : BufId) (x : Spot) (ws : List WriteWord) : s.Spares q (s.stageIn b x ws) := by
  have staged : s.Spares q (s.setBuffer b (stageWords (s.buffer b) x.offset ws)) := by
    refine .of_buffer (s.setBuffer_writes ..) (fun c => s.setBuffer_buffer b c _) rfl fun g w => ?_
    rw [stageWords_state] at g
    rw [stageWords_writer] at w
    exact ⟨g, w⟩
  unfold State.stageIn
  dsimp only
  split
  · exact staged.trans (State.closeBuffer_spares _ b)
  · exact staged

theorem State.openUpdate_spares (s : State) (ne : q ≠ p) (x : Spot) (ws : List WriteWord) : s.Spares q (s.openUpdate p x ws) := by
  cases h : s.freeBuffer with
  | none =>
    unfold State.openUpdate
    rw [h]
    exact .refl q s
  | some b =>
    rw [State.openUpdate_eq h]
    have opened : s.Spares q (s.openBuffer p x b) :=
      .of_buffer (s.openBuffer_writes ..) (s.openBuffer_buffer p x b) rfl fun _ w => absurd w.symm ne
    exact opened.trans (State.stageIn_spares ..)

theorem State.dropHold_spares (s : State) (h : HeldWrite) : s.Spares q (s.setPool { s.pool with holds := s.pool.holds.erase h }) :=
  .of_pool (s.setPool_writes _) (fun _ m => List.mem_of_mem_erase m) fun _ g w => ⟨g, w⟩

theorem State.examineHold_spares (s : State) {h : HeldWrite} (ne : q ≠ h.port) : s.Spares q (s.examineHold h) := by
  unfold State.examineHold
  split
  · exact ((s.dropHold_spares h).trans (State.openUpdate_spares _ ne _ _)).trans (State.finishPiece_spares _ ne _ _ _)
  · exact .refl q s

theorem State.examineHolds_spares (s : State) : s.Spares q s.examineHolds := by
  have each : ∀ (l : List HeldWrite) (t : State), (∀ y ∈ l, q ≠ y.port) → t.Spares q (l.foldl State.examineHold t) := by
    intro l
    induction l with
    | nil => exact fun t _ => .refl q t
    | cons y l ih =>
      exact fun t apart => (t.examineHold_spares (apart y List.mem_cons_self)).trans (ih _ fun z m => apart z (List.mem_cons_of_mem _ m))
  exact ⟨fun n => (each _ s fun y m => (n y m).symm).spared n⟩

theorem State.examineIf_spares (s : State) (left : Bool) : s.Spares q (s.examineIf left) := by
  unfold State.examineIf
  split
  · exact s.examineHolds_spares
  · exact .refl q s

theorem State.earlyClose_spares (s : State) (p : Port) : s.Spares q (s.earlyClose p) := by
  unfold State.earlyClose
  split
  · exact .refl q s
  · exact s.closeBuffer_spares _

theorem State.holdPiece_spares (s : State) (ne : q ≠ p) (x : Spot) (ws : List WriteWord) : s.Spares q (s.holdPiece p x ws) := by
  have held : s.Spares q (s.setPool { s.pool with holds := s.pool.holds ++ [⟨p, x, ws, s.timebase⟩] }) := by
    refine ⟨fun n => ⟨fun y m => ?_, rfl, rfl, rfl, fun _ g w => ⟨g, w⟩⟩⟩
    obtain m | m := List.mem_append.1 m
    · exact n y m
    · rw [List.mem_singleton.1 m]
      exact ne.symm
  exact held.trans (State.awaitPiece_spares _ ne _ _ _)

theorem State.exhausted_spares (s : State) (ne : q ≠ p) (x : Spot) (a : Word) (ws : List WriteWord) : s.Spares q (s.exhausted p x a ws) := by
  have posted : s.Spares q (s.postExhausted p x) := .of_writes (s.postExhausted_writes p x)
  rw [s.exhausted_eq]
  split
  · have torn := (s.postExhausted p x).tearThrough_writes p x
    exact ((posted.trans (.of_keeps (State.tearThrough_keepsUpdates ..) torn (by rw [torn.views]))).trans
      (.setPlainRequest _ ne _)).trans (State.awaitPiece_spares _ ne _ _ _)
  · exact posted.trans (State.finishPiece_spares _ ne _ _ _)
  · exact ((posted.trans (State.earlyClose_spares _ p)).trans (State.holdPiece_spares _ ne _ _)).trans (State.examineHolds_spares _)

theorem State.stagePiece_spares (s : State) (ne : q ≠ p) (x : Spot) (a : Word) (ws : List WriteWord) : s.Spares q (s.stagePiece p x a ws) := by
  unfold State.stagePiece
  dsimp only
  split
  · exact s.finishPiece_spares ne ..
  · split
    · exact ((s.stageIn_spares ..).trans (State.finishPiece_spares _ ne _ _ _)).trans (State.examineIf_spares ..)
    · split
      · exact ((s.openUpdate_spares ne ..).trans (State.finishPiece_spares _ ne _ _ _)).trans (State.examineIf_spares ..)
      · exact s.exhausted_spares ne ..

/-! ### The views (05) and the other paths (02) -/

theorem State.serveFromView_spares (s : State) (ne : q ≠ p) (v : ViewIx) (x : Spot) (n : Nat) : s.Spares q (s.serveFromView p v x n) := by
  unfold State.serveFromView
  split
  · rw [State.answerFromView_eq]
    exact (State.Spares.of_keeps (s.usedView_keepsUpdates ..) (s.usedView_writes ..) (s.usedView_others p v x n q ne)).trans
      (State.finishPiece_spares _ ne _ _ _)
  · exact s.awaitPiece_spares ne ..

theorem State.openView_others (s : State) (p : Port) (v : ViewIx) (r : RegionId) (k : Nat) (ne : q ≠ p) :
    (s.openView p v r k).views.get q = s.views.get q := by
  obtain ⟨-, -, -, -, -, others, -⟩ := s.openView_view p v r k
  exact others q ne

theorem State.viewPiece_spares (s : State) (ne : q ≠ p) (x : Spot) (n : Nat) : s.Spares q (s.viewPiece p x n) := by
  unfold State.viewPiece
  split
  · exact s.serveFromView_spares ne ..
  · split
    · exact s.awaitPiece_spares ne ..
    · next v _ =>
      have opened := (s.releaseView p v).openView_writes p v x.region x.record
      exact ((State.Spares.of_keeps (s.releaseView_keepsUpdates p v) (s.releaseView_writes p v) (s.releaseView_others p v q ne)).trans
        (.of_keeps (.of_writes opened) opened (State.openView_others _ p v _ _ ne))).trans (State.serveFromView_spares _ ne _ _ _)

theorem State.plainPiece_spares (s : State) (ne : q ≠ p) (r : Request) (k n : Nat) (x : Option Spot) : s.Spares q (s.plainPiece p r k n x) :=
  (State.Spares.setPlainRequest s ne _).trans (State.awaitPiece_spares _ ne _ _ _)

theorem State.readOwn_spares (s : State) (ne : q ≠ p) (x : Spot) (n : Nat) (a : Word) : s.Spares q (s.readOwn p x n a) := by
  unfold State.readOwn
  dsimp only
  split
  · exact s.finishPiece_spares ne ..
  · exact (State.Spares.setPlainRequest s ne _).trans (State.awaitPiece_spares _ ne _ _ _)

theorem State.handPiece_spares (s : State) (ne : q ≠ p) (r : Request) (k n : Nat) (x : Option Spot) : s.Spares q (s.handPiece p r k n x) := by
  unfold State.handPiece
  split
  · exact s.plainPiece_spares ne ..
  · dsimp only
    split
    · split
      · exact s.readOwn_spares ne ..
      · exact s.stagePiece_spares ne ..
    · split
      · split
        · exact s.viewPiece_spares ne ..
        · exact s.plainPiece_spares ne ..
      · exact (State.Spares.of_writes (s.post_writes ..)).trans (State.finishPiece_spares _ ne _ _ _)

/-- A move of another port's router spares the port. -/
theorem State.advance_spares (s : State) (ne : q ≠ p) : s.Spares q (s.advance p) := by
  unfold State.advance
  split
  · exact .refl q s
  · dsimp only
    split
    · exact .setPort s ne _
    · split
      · exact s.finishPiece_spares ne ..
      · exact s.handPiece_spares ne ..

/-- While a port cannot move, the routers' moves spare it. -/
theorem Moves.spares (m : Moves s t) (still : s.canAdvance q = false) : s.Spares q t := by
  have unmoved : ∀ {u : State}, s.Spared q u → u.canAdvance q = false := fun k => (State.canAdvance_congr k.port k.views).trans still
  refine ⟨fun n => m.keeps (P := s.Spared q) (fun u n k => ?_) (fun u p can k => ?_) ((State.Spares.refl q s).spared n)⟩
  · exact ⟨k.unheld, k.port, k.plain, k.views, k.updates⟩
  · have ne : q ≠ p := by
      rintro rfl
      rw [unmoved k] at can
      cases can
    exact (State.Spares.trans ⟨fun _ => k⟩ (u.advance_spares ne)).spared n

end

end Sys2Proof.Machine

/-! SUPPORT. The routers' work ends (02 R26, R27; log 8): each move of a router lightens its own port's load and makes no other port's heavier,
and the moves of one step are at least as many as the load. -/

namespace Sys2Proof.Machine

/-! ### Held writes and the pieces they hold (03 R56) -/

/-- Each held write is the outstanding piece of the request in service at its port, and no port has two. -/
structure State.HoldsFit (s : State) : Prop where
  ports : (s.pool.holds.map HeldWrite.port).Nodup
  piece : ∀ h ∈ s.pool.holds, ∃ r rest, (s.port h.port).queue = r :: rest ∧
    (s.port h.port).service.piece = some ⟨h.words.length, some h.spot, .held⟩ ∧
    1 ≤ h.words.length ∧ (s.port h.port).service.next + h.words.length ≤ r.beats

section
variable {s t u g : State} {p q : Port} {r : Request} {rest : List Request} {n : Nat}

theorem State.PortsLawful.holdsFit (h : s.PortsLawful) : s.HoldsFit := ⟨h.ports, h.piece⟩

theorem State.HoldsFit.of_none (h : s.pool.holds = []) : s.HoldsFit := ⟨by rw [h]; exact List.nodup_nil, by rw [h]; nofun⟩

/-- The held writes left, with their ports unchanged, fit as before. -/
theorem State.HoldsFit.fewer (h : s.HoldsFit) (holds : t.pool.holds.Sublist s.pool.holds)
    (ports : ∀ y ∈ t.pool.holds, t.port y.port = s.port y.port) : t.HoldsFit where
  ports := (holds.map _).nodup h.ports
  piece y m := by
    rw [ports y m]
    exact h.piece y (holds.subset m)

theorem State.HoldsFit.unheld (h : s.HoldsFit) (can : s.canAdvance p = true) : s.Unheld p := fun y m e => by
  obtain ⟨r, rest, queue, piece, -⟩ := h.piece y m
  rw [e] at piece
  exact ((State.servable_of_canAdvance (G := False) can).1 _ piece).1 rfl

theorem State.HoldsFit.erase_unheld (h : s.HoldsFit) {y : HeldWrite} (m : y ∈ s.pool.holds) :
    ∀ z ∈ s.pool.holds.erase y, z.port ≠ y.port := fun z m' e => by
  have nodup : s.pool.holds.Nodup := h.ports.of_map
  obtain ⟨ne, mem⟩ := nodup.mem_erase_iff.1 m'
  exact ne (List.inj_on_of_nodup_map h.ports mem m e)

/-! ### The load of a port -/

/-- What the piece in service can still cost: nothing while it waits for memory or a hold. -/
def pieceLoad : Option Piece → Nat
  | none => 2
  | some x => if x.wait = .forView then 1 else 0

/-- A bound on the moves that a port's queue can ask of its router: for each word not yet in a piece two, and for each request to come three
more. -/
def PortState.load (y : PortState) : Nat :=
  match y.queue with
  | [] => 0
  | r :: rest => 2 * (r.beats - y.service.next) + pieceLoad y.service.piece + (rest.map fun r => 2 * r.beats + 3).sum

theorem PortState.load_nil {y : PortState} (h : y.queue = []) : y.load = 0 := by
  unfold PortState.load
  rw [h]

theorem PortState.load_cons {y : PortState} (h : y.queue = r :: rest) : y.load =
    2 * (r.beats - y.service.next) + pieceLoad y.service.piece + (rest.map fun r => 2 * r.beats + 3).sum := by
  unfold PortState.load
  rw [h]

theorem pieceLoad_le (x : Option Piece) : pieceLoad x ≤ 2 := by
  unfold pieceLoad
  split
  · exact Nat.le_refl 2
  · split <;> omega

/-- A port's load is at most what its queue counts for in the moves of a step. -/
theorem PortState.load_le (y : PortState) : y.load ≤ (y.queue.map fun r => 2 * r.beats + 3).sum := by
  cases queue : y.queue with
  | nil => rw [PortState.load_nil queue]; exact Nat.zero_le _
  | cons r rest =>
    have piece := pieceLoad_le y.service.piece
    rw [PortState.load_cons queue, List.map_cons, List.sum_cons]
    omega

theorem State.pieceLoad_pos (can : s.canAdvance p = true) : 1 ≤ pieceLoad (s.port p).service.piece := by
  unfold State.canAdvance at can
  split at can
  · cases can
  · next piece => rw [piece]; decide
  · next x _ piece =>
    rw [Bool.and_eq_true, beq_iff_eq] at can
    rw [piece]
    show 1 ≤ if x.wait = .forView then 1 else 0
    rw [if_pos can.1]

theorem State.load_pos (can : s.canAdvance p = true) : 1 ≤ (s.port p).load := by
  obtain ⟨-, busy⟩ := State.servable_of_canAdvance (G := True) can
  obtain ⟨r, rest, queue⟩ := List.exists_cons_of_ne_nil busy
  have := State.pieceLoad_pos can
  rw [PortState.load_cons queue]
  omega

/-! ### A move lightens its port -/

/-- The held writes fit, and no port is heavier. -/
structure State.NoHeavier (s t : State) : Prop where
  fit : t.HoldsFit
  le : ∀ q, (t.port q).load ≤ (s.port q).load

/-- No port is heavier, and one is lighter. -/
structure State.Lighter (p : Port) (s t : State) : Prop extends s.NoHeavier t where
  lt : (t.port p).load < (s.port p).load

theorem State.NoHeavier.refl (h : s.HoldsFit) : s.NoHeavier s := ⟨h, fun _ => Nat.le_refl _⟩

theorem State.NoHeavier.trans (h : s.NoHeavier t) (k : t.NoHeavier u) : s.NoHeavier u :=
  ⟨k.fit, fun q => (k.le q).trans (h.le q)⟩

theorem State.Lighter.trans (h : s.Lighter p t) (k : t.NoHeavier u) : s.Lighter p u := ⟨h.toNoHeavier.trans k, (k.le p).trans_lt h.lt⟩

/-- The writing of one port that holds no write. -/
theorem State.HoldsFit.lighter (h : s.HoldsFit) (unheld : s.Unheld p) {y : PortState} (port : ∀ q, t.port q = if q = p then y else s.port q)
    (holds : t.pool.holds = s.pool.holds) (lt : y.load < (s.port p).load) : s.Lighter p t where
  fit := h.fewer (by rw [holds]) fun z m => by
    rw [holds] at m
    rw [port, if_neg (unheld z m)]
  le q := by
    rw [port]
    split
    · next e => rw [e]; exact lt.le
    · exact Nat.le_refl _
  lt := by rw [port, if_pos rfl]; exact lt

theorem State.examineHold_noHeavier (h : s.HoldsFit) {y : HeldWrite} (m : y ∈ s.pool.holds) : s.NoHeavier (s.examineHold y) := by
  unfold State.examineHold
  split
  · obtain ⟨r, rest, queue, piece, pos, within⟩ := h.piece y m
    have opened := (s.setPool { s.pool with holds := s.pool.holds.erase y }).openUpdate_writes y.port y.spot y.words
    have holds := (s.setPool { s.pool with holds := s.pool.holds.erase y }).openUpdate_holds y.port y.spot y.words
    generalize (s.setPool { s.pool with holds := s.pool.holds.erase y }).openUpdate y.port y.spot y.words = u at opened holds
    have same : ∀ q, u.port q = s.port q := State.port_congr opened.ports
    have others : ∀ q, q ≠ y.port → (u.finishPiece y.port y.words.length .okay []).port q = s.port q := fun q ne =>
      (u.setPort_port_other _ ne).trans (same q)
    have own := u.finishPiece_port_eq y.port y.words.length .okay []
    rw [same] at own
    have left : (u.finishPiece y.port y.words.length .okay []).pool.holds = s.pool.holds.erase y := holds
    refine ⟨h.fewer (by rw [left]; exact List.erase_sublist) fun z m' => ?_, fun q => ?_⟩
    · rw [left] at m'
      exact others _ (h.erase_unheld m z m')
    · by_cases e : q = y.port
      · subst e
        rw [PortState.load_cons queue, PortState.load_cons (r := r) (rest := rest) (by rw [own]; exact queue), own, piece]
        have none : pieceLoad Option.none = 2 := rfl
        dsimp only
        rw [none]
        omega
      · rw [others q e]
  · exact .refl h

theorem State.examineHolds_noHeavier (h : s.HoldsFit) : s.NoHeavier s.examineHolds := by
  have each : ∀ (l : List HeldWrite) (t : State), t.HoldsFit → l.Nodup → (∀ y ∈ l, y ∈ t.pool.holds) →
      t.NoHeavier (l.foldl State.examineHold t) := by
    intro l
    induction l with
    | nil => exact fun t fit _ _ => .refl fit
    | cons y l ih =>
      intro t fit nodup held
      have first := State.examineHold_noHeavier fit (held y List.mem_cons_self)
      obtain ⟨out, nodup'⟩ := List.nodup_cons.1 nodup
      refine first.trans (ih _ first.fit nodup' fun z m => ?_)
      have mem := held z (List.mem_cons_of_mem _ m)
      obtain e | e := t.examineHold_holds y
      · rwa [e]
      · rw [e]
        exact (List.mem_erase_of_ne fun k : z = y => out (k ▸ m)).2 mem
  exact each _ s h h.ports.of_map fun _ m => m

theorem State.examineIf_noHeavier (h : s.HoldsFit) (left : Bool) : s.NoHeavier (s.examineIf left) := by
  unfold State.examineIf
  split
  · exact State.examineHolds_noHeavier h
  · exact .refl h

/-- The router of this port can move, and its request in service has words in no piece yet. -/
structure State.Serving (s : State) (p : Port) (r : Request) (rest : List Request) : Prop where
  fit : s.HoldsFit
  can : s.canAdvance p = true
  queue : (s.port p).queue = r :: rest
  more : (s.port p).service.next < r.beats

theorem State.Serving.load (h : s.Serving p r rest) :
    2 * (r.beats - (s.port p).service.next) + 1 + (rest.map fun r => 2 * r.beats + 3).sum ≤ (s.port p).load := by
  have := State.pieceLoad_pos h.can
  rw [PortState.load_cons h.queue]
  omega

/-- A piece finished at once. -/
theorem State.Serving.finish (h : s.Serving p r rest) (ports : g.ports = s.ports) (holds : g.pool.holds = s.pool.holds) (pos : 1 ≤ n) (st : Status) (ws : List Word) : s.Lighter p (g.finishPiece p n st ws) := by
  have own := g.finishPiece_port_eq p n st ws
  rw [State.port_congr ports] at own
  have load := h.load
  refine h.fit.lighter (h.fit.unheld h.can) (y := (g.finishPiece p n st ws).port p) (fun q => ?_) holds ?_
  · by_cases e : q = p
    · rw [e, if_pos rfl]
    · rw [if_neg e, ← State.port_congr ports]
      exact g.setPort_port_other _ e
  · rw [PortState.load_cons (r := r) (rest := rest) (by rw [own]; exact h.queue), own]
    have none : pieceLoad Option.none = 2 := rfl
    have more := h.more
    dsimp only
    rw [none]
    omega

theorem State.awaitPiece_port_eq (g : State) (p : Port) (n : Nat) (x : Option Spot) (w : Wait) : (g.awaitPiece p n x w).port p =
    { g.port p with service := { (g.port p).service with piece := some ⟨n, x, w⟩ } } := g.setPort_port_same p _

/-- A piece handed to a path that has not given it an outcome: it awaits a view only if it did not before. -/
theorem State.Serving.await (h : s.Serving p r rest) (ports : g.ports = s.ports) (holds : g.pool.holds = s.pool.holds) (x : Option Spot)
    {w : Wait} (new : w ≠ .forView ∨ (s.port p).service.piece = none) : s.Lighter p (g.awaitPiece p n x w) := by
  have own := g.awaitPiece_port_eq p n x w
  rw [State.port_congr ports] at own
  refine h.fit.lighter (h.fit.unheld h.can) (y := (g.awaitPiece p n x w).port p) (fun q => ?_) holds ?_
  · by_cases e : q = p
    · rw [e, if_pos rfl]
    · rw [if_neg e, ← State.port_congr ports]
      exact g.setPort_port_other _ e
  · rw [PortState.load_cons (r := r) (rest := rest) (by rw [own]; exact h.queue), own, PortState.load_cons h.queue]
    have less : pieceLoad (some ⟨n, x, w⟩) < pieceLoad (s.port p).service.piece := by
      by_cases e : w = .forView
      · rw [new.resolve_left fun n => n e, e]
        show (if Wait.forView = .forView then 1 else 0) < 2
        rw [if_pos rfl]
        exact Nat.lt_succ_self 1
      · refine Nat.lt_of_lt_of_le ?_ (State.pieceLoad_pos h.can)
        show (if w = .forView then 1 else 0) < 1
        rw [if_neg e]
        exact Nat.one_pos
    dsimp only
    omega

/-- A piece that becomes its port's held write. -/
theorem State.Serving.hold (h : s.Serving p r rest) (ports : g.ports = s.ports) (holds : g.pool.holds = s.pool.holds) (x : Spot)
    {ws : List WriteWord} (pos : 1 ≤ ws.length) (within : (s.port p).service.next + ws.length ≤ r.beats) :
    s.Lighter p (g.holdPiece p x ws) := by
  have own : (g.holdPiece p x ws).port p = _ := State.awaitPiece_port_eq _ p ws.length (some x) .held
  have port : (g.setPool { g.pool with holds := g.pool.holds ++ [⟨p, x, ws, g.timebase⟩] }).port p = s.port p :=
    State.port_congr ports p
  rw [port] at own
  have others : ∀ q, q ≠ p → (g.holdPiece p x ws).port q = s.port q := fun q ne => by
    rw [← State.port_congr ports]
    exact State.setPort_port_other _ _ ne
  have unheld := h.fit.unheld h.can
  have list : (g.holdPiece p x ws).pool.holds = s.pool.holds ++ [⟨p, x, ws, g.timebase⟩] := by
    rw [← holds]
    rfl
  have load := h.load
  have less : ((g.holdPiece p x ws).port p).load < (s.port p).load := by
    rw [PortState.load_cons (r := r) (rest := rest) (by rw [own]; exact h.queue), own]
    have held : pieceLoad (some ⟨ws.length, some x, .held⟩) = 0 := rfl
    dsimp only
    rw [held]
    omega
  refine ⟨⟨⟨?_, fun y m => ?_⟩, fun q => ?_⟩, less⟩
  · rw [list, List.map_append]
    refine List.nodup_append.2 ⟨h.fit.ports, List.nodup_singleton _, fun a m b m' e => ?_⟩
    obtain ⟨y, mem, rfl⟩ := List.mem_map.1 m
    rw [List.map_singleton, List.mem_singleton] at m'
    exact unheld y mem (e.trans m')
  · rw [list, List.mem_append, List.mem_singleton] at m
    obtain m | rfl := m
    · rw [others y.port (unheld y m)]
      exact h.fit.piece y m
    · rw [own]
      exact ⟨r, rest, h.queue, rfl, pos, within⟩
  · by_cases e : q = p
    · rw [e]; exact less.le
    · rw [others q e]

theorem State.Serving.request (h : s.Serving p r rest) (q : Option MemRequest) (x : Option Spot) {w : Wait} (new : w ≠ .forView) :
    s.Lighter p ((s.setPlainRequest p q).awaitPiece p n x w) := 
  h.await (g := s.setPlainRequest p q) rfl rfl x (.inl new)

theorem State.Serving.plain (h : s.Serving p r rest) (k : Nat) (x : Option Spot) : s.Lighter p (s.plainPiece p r k n x) := by
  unfold State.plainPiece
  dsimp only
  exact h.request _ x nofun

theorem State.Serving.readOwn (h : s.Serving p r rest) (x : Spot) (pos : 1 ≤ n) (a : Word) : s.Lighter p (s.readOwn p x n a) := by
  unfold State.readOwn
  dsimp only
  split
  · exact h.finish rfl rfl pos ..
  · exact h.request _ _ nofun

theorem State.Serving.stage (h : s.Serving p r rest) (x : Spot) (a : Word) {ws : List WriteWord} (pos : 1 ≤ ws.length)
    (within : (s.port p).service.next + ws.length ≤ r.beats) : s.Lighter p (s.stagePiece p x a ws) := by
  have length : (setAside (s.definition x.region).versionWord x.offset ws).length = ws.length := setAside_length ..
  unfold State.stagePiece
  dsimp only
  generalize setAside (s.definition x.region).versionWord x.offset ws = l at length
  rw [← length] at pos within
  split
  · exact h.finish rfl rfl pos ..
  · split
    · next b _ =>
      have done := h.finish (s.stageIn_writes b x l).ports (s.stageIn_holds b x l) pos .okay []
      exact done.trans (State.examineIf_noHeavier done.fit _)
    · split
      · have done := h.finish (s.openUpdate_writes p x l).ports (s.openUpdate_holds p x l) pos .okay []
        exact done.trans (State.examineIf_noHeavier done.fit _)
      · have posted := s.postExhausted_writes p x
        rw [s.exhausted_eq]
        split
        · have ports := ((s.postExhausted p x).tearThrough_writes p x).ports.trans posted.ports
          have holds := ((s.postExhausted p x).tearThrough_keepsUpdates p x).holds.trans (congrArg Pool.holds posted.pool)
          generalize (s.postExhausted p x).tearThrough p x = u at ports holds
          exact h.await (g := u.setPlainRequest p (some (.write a l))) ports holds _ (.inl nofun)
        · exact h.finish posted.ports (congrArg Pool.holds posted.pool) pos ..
        · have closed := (s.postExhausted p x).earlyClose_writes p
          have done := h.hold (closed.ports.trans posted.ports)
            ((State.earlyClose_holds _ p).trans (congrArg Pool.holds posted.pool))
            x pos within
          exact done.trans (State.examineHolds_noHeavier done.fit)

theorem State.Serving.serve (h : s.Serving p r rest) (ports : g.ports = s.ports) (holds : g.pool.holds = s.pool.holds) (v : ViewIx) (x : Spot) (pos : 1 ≤ n) : s.Lighter p (g.serveFromView p v x n) := by
  unfold State.serveFromView
  split
  · rw [State.answerFromView_eq]
    exact h.finish ((g.usedView_writes p v x n).ports.trans ports) ((State.usedView_keepsUpdates g p v x n).holds.trans holds) pos ..
  · exact h.await ports holds _ (.inl nofun)

theorem State.Serving.view (h : s.Serving p r rest) (x : Spot) (pos : 1 ≤ n) : s.Lighter p (s.viewPiece p x n) := by
  unfold State.viewPiece
  split
  · exact h.serve rfl rfl _ _ pos
  · split
    · next none =>
      refine h.await rfl rfl _ (.inr ?_)
      have can := h.can
      unfold State.canAdvance at can
      split at can
      · cases can
      · next piece => exact piece
      · rw [none, Bool.and_eq_true] at can
        exact absurd can.2 (by decide)
    · next v _ =>
      have released := s.releaseView_writes p v
      have opened := (s.releaseView p v).openView_writes p v x.region x.record
      exact h.serve (opened.ports.trans released.ports)
        ((congrArg Pool.holds opened.pool).trans (s.releaseView_keepsUpdates p v).holds) _ _ pos

theorem State.Serving.handPiece (h : s.Serving p r rest) (x : Option Spot) (pos : 1 ≤ n) (within : (s.port p).service.next + n ≤ r.beats) :
    s.Lighter p (s.handPiece p r (s.port p).service.next n x) := by
  unfold State.handPiece
  split
  · exact h.plain _ _
  · next y =>
    dsimp only
    split
    · split
      · exact h.readOwn _ pos _
      · next write =>
        have length := requestWords_length (by simpa using write) within
        exact h.stage _ _ (by rw [length]; exact pos) (by rw [length]; exact within)
    · split
      · split
        · exact h.view _ pos
        · exact h.plain _ _
      · have posted := s.post_writes (.writeRefused .foreign) y.region p y.record (s.version y.region y.record)
        exact h.finish posted.ports (congrArg Pool.holds posted.pool) pos ..

/-- A move of a router lightens its port (02 R26, R27, R37). -/
theorem State.HoldsFit.advance (fit : s.HoldsFit) (can : s.canAdvance p = true) : s.Lighter p (s.advance p) := by
  obtain ⟨-, busy⟩ := State.servable_of_canAdvance (G := False) can
  obtain ⟨r, rest, queue⟩ := List.exists_cons_of_ne_nil busy
  unfold State.advance
  rw [queue]
  dsimp only
  split
  · have port := s.respond_port p r rest
    have pos := State.pieceLoad_pos can
    refine fit.lighter (fit.unheld can) (y := (s.respond p r rest).port p) (fun q => ?_) rfl ?_
    · by_cases e : q = p
      · rw [e, if_pos rfl]
      · rw [if_neg e]
        exact s.setPort_port_other _ e
    · rw [PortState.load_cons queue]
      cases rest with
      | nil =>
        rw [PortState.load_nil (by rw [port])]
        omega
      | cons r' rest =>
        rw [PortState.load_cons (r := r') (rest := rest) (by rw [port]), port, List.map_cons, List.sum_cons]
        have none : pieceLoad Service.fresh.piece = 2 := rfl
        have zero : Service.fresh.next = 0 := rfl
        dsimp only
        rw [none, zero]
        omega
  · next more =>
    have serving : s.Serving p r rest := ⟨fit, can, queue, Nat.lt_of_not_le more⟩
    split
    · exact serving.finish rfl rfl (by omega) ..
    · refine serving.handPiece _ (Nat.le_add_right ..) ?_
      have := s.runLength_le r (s.spotOf (beatAddress r (s.port p).service.next)) ((s.port p).service.next + 1)
        (r.beats - ((s.port p).service.next + 1))
      omega

/-! ### The routers' work ends -/

/-- The load of all ports. -/
def State.load (s : State) : Nat := (allPorts.map fun p => (s.port p).load).sum

theorem State.load_eq (s : State) : s.load = (s.port .u0).load + (s.port .u1).load + (s.port .u2).load := by
  unfold State.load allPorts
  simp only [List.map_cons, List.map_nil, List.sum_cons, List.sum_nil]
  omega

theorem State.Lighter.load_lt (h : s.Lighter p t) : t.load < s.load := by
  have le := h.le
  have lt := h.lt
  rw [State.load_eq, State.load_eq]
  have h0 := le .u0
  have h1 := le .u1
  have h2 := le .u2
  cases p <;> omega

theorem State.load_le_workLeft (s : State) : s.load ≤ s.workLeft :=
  List.sum_le_sum fun p _ => (s.port p).load_le

theorem runRouters_ends (fit : s.HoldsFit) (le : s.load ≤ n) : (runRouters n s).movable = [] ∧ (runRouters n s).HoldsFit := by
  induction n generalizing s with
  | zero =>
    refine ⟨State.movable_eq_nil.2 fun p => Bool.eq_false_iff.2 fun can => ?_, fit⟩
    have pos : 1 ≤ (s.port p).load := State.load_pos can
    have eq := s.load_eq
    cases p <;> omega
  | succ n ih =>
    unfold runRouters
    split
    · next still => exact ⟨still, fit⟩
    · next p movable =>
      have can : s.canAdvance p = true := (List.mem_filter.1 (movable ▸ List.mem_cons_self : p ∈ s.movable)).2
      have lighter := fit.advance can
      exact ih lighter.fit (by have := lighter.load_lt; omega)
    · next p q ps movable =>
      have chosen : (s.setChoices (s.choices + 1)).HoldsFit := fit.fewer (.refl _) fun _ _ => rfl
      have can : (s.setChoices (s.choices + 1)).canAdvance _ = true := s.chosen_movable movable (Config.freeChoice s.choices)
      have lighter := chosen.advance can
      have same : (s.setChoices (s.choices + 1)).load = s.load := rfl
      exact ih lighter.fit (by have := lighter.load_lt; omega)

/-- Once the routers have moved, none can. -/
theorem State.route_ends (fit : s.HoldsFit) : s.route.movable = [] ∧ s.route.HoldsFit := runRouters_ends fit s.load_le_workLeft

end

end Sys2Proof.Machine

/-! SUPPORT. The laws that every step keeps (02 R25, R26; 03 R56): between steps no router can move and no long command's condition holds, and
a held write waits only while a staging limit stands in its way. -/

namespace Sys2Proof.Machine

section
variable {s t u : State} {c : Instr}

/-! ### Rest between steps (95; log 8) -/

theorem State.completeLong_completeLong (s : State) : s.completeLong.completeLong = s.completeLong := by
  obtain e | ⟨l, e⟩ := s.completeLong_state
  · rw [e, e]
  · exact State.completeLong_idle _ fun x h => nomatch h.symm.trans e

theorem State.completeLong_movable (s : State) : s.completeLong.movable = s.movable := by
  have w := s.completeLong_writes
  refine List.filter_congr fun p _ => ?_
  exact State.canAdvance_congr (State.port_congr w.ports p) (congrArg (fun x => x.get p) w.views)

theorem State.AtRest.of_completeLong (still : s.movable = []) : s.completeLong.AtRest :=
  ⟨s.completeLong_movable.trans still, s.completeLong_completeLong⟩

/-- What a step settles to is at rest. -/
theorem State.HoldsFit.settle (h : s.HoldsFit) : s.settle.AtRest := .of_completeLong (State.route_ends h).1

theorem State.canAdvance_service {p : Port} (queue : (t.port p).queue = (s.port p).queue) (service : (t.port p).service = (s.port p).service)
    (views : t.views.get p = s.views.get p) : t.canAdvance p = s.canAdvance p := by
  unfold State.canAdvance
  rw [queue, service, State.viewToOpen_congr views]

theorem State.hardReset_atRest (s : State) : s.hardReset.AtRest :=
  .intro (fun p => State.canAdvance_empty (s.hardReset_idle p).1) (.of_ready nofun)

theorem State.AtRest.setPending (h : s.AtRest) (l : List Instr) : State.AtRest { s with pending := l } := h.carry_pool rfl rfl rfl rfl rfl

/-- The link's own changes leave the rest: the command in execution stays, or none is. -/
theorem State.AtRest.linkOnly (h : s.AtRest) (l : s.LinkOnly t) : t.AtRest := by
  have w := l.writes
  refine .intro (fun p => ?_) ?_
  · exact (State.canAdvance_congr (State.port_congr w.ports p) (congrArg (fun x => x.get p) w.views)).trans (h.still p)
  · obtain e | ⟨-, un⟩ := l.state
    · have old := h.awaits
      have buffer : ∀ b, t.buffer b = s.buffer b := fun b => State.buffer_congr w.pool b
      have definition : ∀ r, t.definition r = s.definition r := fun r => by
        unfold State.definition State.region
        rw [w.regions]
      refine ⟨fun r n k => ?_, fun r a c v k => ?_, fun a v x k => old.flushPort a v x (e ▸ k), fun g c v f m x k => old.restart g c v f m x (e ▸ k)⟩
      · rw [definition]
        exact old.activate r n (e ▸ k)
      · obtain ⟨b, used, named⟩ := old.retire r a c v (e ▸ k)
        exact ⟨b, by rw [buffer]; exact used, by rw [buffer]; exact named⟩
    · exact .of_ready un

theorem State.AtRest.takeCommit (h : s.AtRest) : s.takeCommit.AtRest := by
  have w := s.takeCommit_writes
  exact h.carry w.ports w.views w.link w.regions fun b used =>
    ⟨(s.takeCommit_busy_iff b).1.2 used, (s.takeCommit_busy_iff b).2⟩

theorem State.AtRest.grant (h : s.AtRest) : s.grant.AtRest := by
  have w := s.grant_writes
  exact h.carry_pool w.ports w.views w.link w.regions w.pool

theorem State.AtRest.requestCapture (h : s.AtRest) : s.requestCapture.AtRest := by
  have w := s.requestCapture_writes
  exact h.carry_pool w.ports w.views w.link w.regions w.pool

/-- A tick's end: the timebase advances, and an ACTIVATE fills an entry. -/
theorem State.AtRest.nextMicrosecond (h : s.AtRest) : ((s.setTimebase (s.timebase + 1)).fillEntry).AtRest := by
  have later : (s.setTimebase (s.timebase + 1)).AtRest := h.carry_pool rfl rfl rfl rfl rfl
  generalize s.setTimebase (s.timebase + 1) = u at later
  obtain ⟨r, n, -, e⟩ | ⟨-, e⟩ := u.fillEntry_cases
  · rw [e]
    have w := u.filled_writes r n
    refine .of_completeLong (State.movable_eq_nil.2 fun p => ?_)
    exact (State.canAdvance_congr (State.port_congr w.ports p) (congrArg (fun x => x.get p) w.views)).trans (later.still p)
  · rw [e]
    exact later

/-- The timers' expiries end at rest: each of them settles. -/
theorem State.AtRest.expireDue (ports : s.PortsLawful) (h : s.AtRest) : s.expireDue.AtRest := by
  refine (runTimers_keeps (P := fun s => s.PortsLawful ∧ s.AtRest) (fun s n k => ?_) (fun s x k d => ?_) _ s ⟨ports, h⟩).2
  · exact ⟨State.portsLawful_kept.quiet _ _ (.choose s n) k.1, k.2.carry_pool rfl rfl rfl rfl rfl⟩
  · rw [s.expire_eq]
    have expired := State.portsLawful_kept.quiets (s.expires_quiet x d).to_reflTransGen k.1
    exact ⟨State.portsLawful_kept.quiets (State.settle_quiets _) expired, expired.holdsFit.settle⟩

theorem State.AtRest.alone (ports : s.PortsLawful) (h : s.AtRest) (q : Alone s c t) : t.AtRest := by
  cases q with
  | hardReset => exact s.hardReset_atRest
  | lineFalls x =>
    exact State.AtRest.linkOnly (s := s.setHardResetLine false) (h.carry_pool rfl rfl rfl rfl rfl) (State.setFrame_linkOnly _ x)
  | resetLineFalls p =>
    refine .intro (fun q => ?_) (h.awaits.setPort p _)
    have port := s.setPort_port p q { s.port p with resetLine := false }
    refine (State.canAdvance_service (s := s) (t := s.setPort p { s.port p with resetLine := false }) ?_ ?_ rfl).trans (h.still q)
    · rw [port]
      split
      · next e => rw [e]
      · rfl
    · rw [port]
      split
      · next e => rw [e]
      · rfl
  | tick _ _ => exact (h.expireDue ports).nextMicrosecond
  | grant _ => exact h.grant
  | takeCommit => exact h.takeCommit
  | requestCapture => exact h.requestCapture
  | complete => exact .of_completeLong h.routers
  | link l => exact h.linkOnly l

theorem State.AtRest.steps (ports : s.PortsLawful) (h : s.AtRest) (q : Steps s c t) : t.AtRest := by
  obtain q | ⟨u, q, rfl⟩ := q
  · exact h.alone ports q
  · exact (State.portsLawful_kept.starts q ports).holdsFit.settle

theorem State.AtRest.step (ports : s.PortsLawful) (h : s.AtRest) (e : step s = .next t) : t.AtRest := by
  unfold Machine.step at e
  split at e
  · cases e
    exact h
  · next c l _ => exact (h.setPending l).steps (State.portsLawful_kept.pending s l ports) (Steps.of_exec e)

end

end Sys2Proof.Machine

/-! SUPPORT. A held write waits only while a staging limit stands in its way (03 R56): what frees no room for a held write's port leaves it
waiting, and one examination in hold-list order leaves none that may open. -/

namespace Sys2Proof.Machine

section
variable {s t u : State} {p q : Port}

theorem State.HoldsFit.congr (h : s.HoldsFit) (pool : t.pool = s.pool) (ports : t.ports = s.ports) : t.HoldsFit :=
  h.fewer (by rw [pool]) fun _ _ => State.port_congr ports _

/-! ### What gives no held write room -/

theorem State.canOpen_eq_false_iff : s.canOpen p = false ↔ (∀ b, (s.buffer b).state ≠ .free) ∨ 4 ≤ (s.pool.gathering.get p).length := by
  refine ⟨fun h => ?_, State.canOpen_eq_false⟩
  by_contra n
  rw [not_or, Nat.not_le] at n
  obtain ⟨full, room⟩ := n
  push Not at full
  exact absurd ((s.canOpen_iff p).2 ⟨full, room⟩) (Bool.eq_false_iff.1 h)

theorem State.holdsWait_iff : s.HoldsWait ↔ ∀ h ∈ s.pool.holds, s.canOpen h.port = false :=
  forall₂_congr fun _ _ => State.canOpen_eq_false_iff.symm

/-- No port but one gets room to open an update, and no write is newly held. -/
structure State.Tighter (e : Option Port) (s t : State) : Prop where
  opens : ∀ q, some q ≠ e → t.canOpen q = true → s.canOpen q = true
  holds : ∀ h ∈ t.pool.holds, h ∈ s.pool.holds

theorem State.Tighter.refl (e : Option Port) (s : State) : s.Tighter e s := ⟨fun _ _ h => h, fun _ m => m⟩

theorem State.Tighter.trans {e : Option Port} (h : s.Tighter e t) (k : t.Tighter e u) : s.Tighter e u :=
  ⟨fun q n o => h.opens q n (k.opens q n o), fun y m => h.holds y (k.holds y m)⟩

theorem State.Tighter.weaken (h : s.Tighter none t) (e : Option Port) : s.Tighter e t := ⟨fun q _ => h.opens q nofun, h.holds⟩

theorem State.Tighter.wait (h : s.Tighter none t) (w : s.HoldsWait) : t.HoldsWait := by
  rw [State.holdsWait_iff] at w ⊢
  intro y m
  have shut := w y (h.holds y m)
  exact Bool.eq_false_iff.2 fun o => Bool.eq_false_iff.1 shut (h.opens _ nofun o)

/-- No buffer goes to FREE, and no gathering list but one port's gets shorter. -/
theorem State.Tighter.of_buffers {e : Option Port} (free : ∀ b, (t.buffer b).state = .free → (s.buffer b).state = .free)
    (gathering : ∀ q, some q ≠ e → (s.pool.gathering.get q).length ≤ (t.pool.gathering.get q).length)
    (holds : t.pool.holds = s.pool.holds) : s.Tighter e t where
  opens q n o := by
    obtain ⟨⟨b, f⟩, room⟩ := (t.canOpen_iff q).1 o
    exact (s.canOpen_iff q).2 ⟨⟨b, free b f⟩, (gathering q n).trans_lt room⟩
  holds y m := by rwa [holds] at m

theorem State.Tighter.of_keeps (k : s.KeepsUpdates t) : s.Tighter none t :=
  .of_buffers (fun b f => by rwa [k.state] at f) (fun q _ => by rw [k.gathering]) k.holds

theorem State.Tighter.of_writes {fs : List Field} (w : s.Writes fs t) (n : Field.pool ∉ fs := by decide) : s.Tighter none t :=
  .of_keeps (.of_writes w n)

/-- Closing an update gives room to its own port alone. -/
theorem State.closeBuffer_tighter (s : State) (b : BufId) : s.Tighter (some (s.buffer b).writer) (s.closeBuffer b) := by
  refine .of_buffers (fun c f => ?_) (fun q n => ?_) rfl
  · rw [s.closeBuffer_buffer] at f
    split at f
    · cases f
    · exact f
  · rw [s.closeBuffer_gathering, PerPort.get_set_other _ _ fun e : q = _ => n (congrArg some e)]

theorem State.stageWords_tighter (s : State) (b : BufId) (x : Spot) (ws : List WriteWord) :
    s.Tighter none (s.setBuffer b (stageWords (s.buffer b) x.offset ws)) := by
  refine .of_buffers (fun c f => ?_) (fun q _ => Nat.le_refl _) rfl
  rw [State.setBuffer_buffer] at f
  split at f
  · next e => rw [stageWords_state] at f; rw [e]; exact f
  · exact f

theorem State.stageIn_tighter (s : State) (b : BufId) (x : Spot) (ws : List WriteWord) :
    s.Tighter (some (s.buffer b).writer) (s.stageIn b x ws) ∧ (s.closes x ws = false → s.Tighter none (s.stageIn b x ws)) := by
  have staged := s.stageWords_tighter b x ws
  have closed := State.closeBuffer_tighter (s.setBuffer b (stageWords (s.buffer b) x.offset ws)) b
  rw [State.setBuffer_buffer_same, stageWords_writer] at closed
  unfold State.stageIn
  dsimp only
  by_cases c : s.closes x ws = true
  · rw [if_pos c]
    exact ⟨(staged.weaken _).trans closed, fun n => absurd c (Bool.eq_false_iff.1 n)⟩
  · rw [if_neg c]
    exact ⟨staged.weaken _, fun _ => staged⟩

theorem State.openBuffer_tighter (s : State) (p : Port) (x : Spot) (b : BufId) : s.Tighter none (s.openBuffer p x b) := by
  refine .of_buffers (fun c f => ?_) (fun q _ => ?_) rfl
  · rw [s.openBuffer_buffer] at f
    split at f
    · cases f
    · exact f
  · rw [s.openBuffer_gathering]
    by_cases e : q = p
    · rw [e, PerPort.get_set_same, List.length_append]
      exact Nat.le_add_right ..
    · rw [PerPort.get_set_other _ _ e]

theorem State.openUpdate_tighter (s : State) (p : Port) (x : Spot) (ws : List WriteWord) :
    s.Tighter (some p) (s.openUpdate p x ws) ∧ (s.closes x ws = false → s.Tighter none (s.openUpdate p x ws)) := by
  cases h : s.freeBuffer with
  | none =>
    unfold State.openUpdate
    rw [h]
    exact ⟨.refl _ s, fun _ => .refl _ s⟩
  | some b =>
    rw [State.openUpdate_eq h]
    have opened := s.openBuffer_tighter p x b
    have staged := (s.openBuffer p x b).stageIn_tighter b x ws
    have writer : ((s.openBuffer p x b).buffer b).writer = p := by
      rw [s.openBuffer_buffer, if_pos rfl]
      rfl
    rw [writer] at staged
    exact ⟨(opened.weaken _).trans staged.1, fun c => opened.trans (staged.2 c)⟩

theorem State.dropHold_tighter (s : State) (h : HeldWrite) : s.Tighter none (s.setPool { s.pool with holds := s.pool.holds.erase h }) :=
  ⟨fun _ _ o => o, fun _ m => List.mem_of_mem_erase m⟩

theorem State.examineHold_tighter (s : State) (h : HeldWrite) : s.Tighter (some h.port) (s.examineHold h) := by
  unfold State.examineHold
  split
  · exact (((s.dropHold_tighter h).weaken _).trans (State.openUpdate_tighter ..).1).trans
      ((State.Tighter.of_writes (State.finishPiece_writes ..)).weaken _)
  · exact .refl _ s

/-! ### One examination suffices (03 R56; log 23) -/

theorem State.examineHold_open {h : HeldWrite} (can : s.canOpen h.port = true) : (s.examineHold h).pool.holds = s.pool.holds.erase h := by
  unfold State.examineHold
  rw [if_pos can]
  exact State.openUpdate_holds _ h.port h.spot h.words

theorem State.examineHold_shut {h : HeldWrite} (shut : s.canOpen h.port = false) : s.examineHold h = s := by
  unfold State.examineHold
  rw [if_neg (Bool.eq_false_iff.1 shut)]

/-- Of held writes of distinct ports, each that is examined opens, or waits from then on. -/
theorem State.examineEach_wait {l : List HeldWrite} (s : State) (ports : (s.pool.holds.map HeldWrite.port).Nodup) (nodup : l.Nodup)
    (held : ∀ y ∈ l, y ∈ s.pool.holds) (wait : ∀ y ∈ s.pool.holds, y ∈ l ∨ s.canOpen y.port = false) : (l.foldl State.examineHold s).HoldsWait := by
  induction l generalizing s with
  | nil => exact State.holdsWait_iff.2 fun y m => (wait y m).resolve_left List.not_mem_nil
  | cons y l ih =>
    obtain ⟨out, nodup'⟩ := List.nodup_cons.1 nodup
    by_cases can : s.canOpen y.port = true
    · have holds := State.examineHold_open can
      have tighter := s.examineHold_tighter y
      have once : s.pool.holds.Nodup := ports.of_map
      refine ih _ ?_ nodup' (fun z m => ?_) fun z m => ?_
      · rw [holds]
        exact (List.erase_sublist.map _).nodup ports
      · rw [holds]
        exact (List.mem_erase_of_ne fun e : z = y => out (e ▸ m)).2 (held z (List.mem_cons_of_mem _ m))
      · rw [holds] at m
        obtain ⟨ne, mem⟩ := once.mem_erase_iff.1 m
        have apart : z.port ≠ y.port := fun e => ne (List.inj_on_of_nodup_map ports mem (held y List.mem_cons_self) e)
        refine (wait z mem).imp (fun k => (List.mem_cons.1 k).resolve_left ne) fun k => ?_
        exact Bool.eq_false_iff.2 fun o => Bool.eq_false_iff.1 k (tighter.opens _ (fun e => apart (Option.some.inj e)) o)
    · have shut : s.canOpen y.port = false := Bool.eq_false_iff.2 can
      rw [List.foldl_cons, State.examineHold_shut shut]
      refine ih s ports nodup' (fun z m => held z (List.mem_cons_of_mem _ m)) fun z m => ?_
      obtain k | k := wait z m
      · obtain rfl | k := List.mem_cons.1 k
        · exact .inr shut
        · exact .inl k
      · exact .inr k

theorem State.examineHolds_wait (ports : (s.pool.holds.map HeldWrite.port).Nodup) : s.examineHolds.HoldsWait :=
  State.examineEach_wait s ports ports.of_map (fun _ m => m) fun _ m => .inl m

theorem State.examineHolds_wait_of (fit : s.HoldsFit) (holds : t.pool.holds.Sublist s.pool.holds) : t.examineHolds.HoldsWait :=
  State.examineHolds_wait ((holds.map _).nodup fit.ports)

/-! ### The parts of a step -/

/-- A piece staged: it gives room only where it closes its update, and then the held writes are examined. -/
theorem State.HoldsFit.examines (fit : s.HoldsFit) (wait : s.HoldsWait) {closes : Bool} (holds : t.pool.holds = s.pool.holds)
    (tighter : closes = false → s.Tighter none t) (n : Nat) : ((t.finishPiece p n .okay []).examineIf closes).HoldsWait := by
  unfold State.examineIf
  cases closes with
  | true => exact State.examineHolds_wait_of fit (by rw [← holds]; exact .refl _)
  | false => exact ((tighter rfl).trans (.of_writes (t.finishPiece_writes p n .okay []))).wait wait

theorem State.exhausted_wait (fit : s.HoldsFit) (unheld : s.Unheld p) (wait : s.HoldsWait) (x : Spot) (a : Word) (ws : List WriteWord) :
    (s.exhausted p x a ws).HoldsWait := by
  have posted : s.Tighter none (s.postExhausted p x) := .of_writes (s.postExhausted_writes p x)
  rw [s.exhausted_eq]
  split
  · exact (((posted.trans (.of_keeps (State.tearThrough_keepsUpdates ..))).trans (.of_writes (State.setPlainRequest_writes ..))).trans
      (.of_writes (State.awaitPiece_writes ..))).wait wait
  · exact (posted.trans (.of_writes (State.finishPiece_writes ..))).wait wait
  · refine State.examineHolds_wait ?_
    have holds : (((s.postExhausted p x).earlyClose p).holdPiece p x ws).pool.holds =
        s.pool.holds ++ [⟨p, x, ws, ((s.postExhausted p x).earlyClose p).timebase⟩] :=
      congrArg (· ++ _) (State.earlyClose_holds (s.postExhausted p x) p)
    rw [holds, List.map_append]
    refine List.nodup_append.2 ⟨fit.ports, List.nodup_singleton _, fun a m b m' e => ?_⟩
    obtain ⟨y, mem, rfl⟩ := List.mem_map.1 m
    rw [List.map_singleton, List.mem_singleton] at m'
    exact unheld y mem (e.trans m')

theorem State.stagePiece_wait (fit : s.HoldsFit) (unheld : s.Unheld p) (wait : s.HoldsWait) (x : Spot) (a : Word) (ws : List WriteWord) :
    (s.stagePiece p x a ws).HoldsWait := by
  unfold State.stagePiece
  dsimp only
  split
  · exact (State.Tighter.of_writes (s.finishPiece_writes ..)).wait wait
  · split
    · exact fit.examines wait (s.stageIn_holds ..) (s.stageIn_tighter ..).2 _
    · split
      · exact fit.examines wait (s.openUpdate_holds ..) (s.openUpdate_tighter ..).2 _
      · exact State.exhausted_wait fit unheld wait _ _ _

theorem State.advance_wait (fit : s.HoldsFit) (wait : s.HoldsWait) (can : s.canAdvance p = true) : (s.advance p).HoldsWait := by
  have writes : ∀ {fs : List Field} {t : State}, s.Writes fs t → (Field.pool ∉ fs) → t.HoldsWait := fun w n => (State.Tighter.of_writes w n).wait wait
  unfold State.advance
  split
  · exact wait
  · dsimp only
    split
    · exact writes (s.respond_writes ..) (by decide)
    · split
      · exact writes (s.finishPiece_writes ..) (by decide)
      · unfold State.handPiece
        split
        · exact writes (s.plainPiece_writes ..) (by decide)
        · dsimp only
          split
          · split
            · exact writes (s.readOwn_writes ..) (by decide)
            · exact State.stagePiece_wait fit (fit.unheld can) wait _ _ _
          · split
            · split
              · exact (State.Tighter.of_keeps (s.viewPiece_keepsUpdates ..)).wait wait
              · exact writes (s.plainPiece_writes ..) (by decide)
            · exact writes (s.foreignWrite_writes ..) (by decide)

theorem State.takeCommit_gathering (s : State) : s.takeCommit.pool.gathering = s.pool.gathering := by
  obtain same | ⟨b, job, -, -, -, -, same⟩ := s.takeCommit_cases
  · rw [same]
  · rw [same]; rfl

theorem State.takeCommit_tighter (s : State) : s.Tighter none s.takeCommit := by
  refine .of_buffers (fun b f => ?_) (fun q _ => by rw [s.takeCommit_gathering]) s.takeCommit_holds
  by_contra n
  exact (s.takeCommit_busy_iff b).1.2 n f

theorem State.completeCommit_wait (fit : s.HoldsFit) (job : CommitJob) : (s.completeCommit job).HoldsWait := by
  rw [s.completeCommit_eq]
  refine (State.takeCommit_tighter _).wait (State.examineHolds_wait_of fit ?_)
  rw [s.freedCommit_holds]

theorem State.endTransaction_wait (fit : s.HoldsFit) (wait : s.HoldsWait) (q : Requester) (as : List Answer) (d : Bool) :
    (s.endTransaction q as d).HoldsWait := by
  have idle : s.Tighter none s.idlePort := .of_writes s.idlePort_writes
  obtain e | ⟨p, -, -, e⟩ | ⟨job, -, -, -, e⟩ | ⟨-, -, e⟩ := s.endTransaction_cases q as d
  · rw [e]; exact idle.wait wait
  · rw [e]; exact (idle.trans (.of_writes (State.endPlain_writes ..))).wait wait
  · rw [e]
    exact State.completeCommit_wait (fit.congr (t := s.idlePort) rfl rfl) job
  · rw [e]; exact (idle.trans (.of_keeps (State.endRead_keepsUpdates _))).wait wait

theorem State.takeAnswers_wait (fit : s.HoldsFit) (wait : s.HoldsWait) (tr : Transaction) (f : List Answer → List Answer) :
    (s.takeAnswers tr f).HoldsWait := by
  have w := s.recordAnswers_writes tr f
  have recorded : (s.recordAnswers tr f).HoldsWait := (State.Tighter.of_writes w).wait wait
  rw [s.takeAnswers_eq]
  split
  · exact State.endTransaction_wait (fit.congr w.pool w.ports) recorded _ _ _
  · exact recorded

theorem State.expireBuffer_wait (fit : s.HoldsFit) (b : BufId) : (s.expireBuffer b).HoldsWait := by
  unfold State.expireBuffer
  dsimp only
  split <;> exact State.examineHolds_wait_of fit (.refl _)

theorem Quiet.holdsWait (q : Quiet s t) (ports : s.PortsLawful) (wait : s.HoldsWait) : t.HoldsWait := by
  cases q with
  | choose n => exact (State.Tighter.of_writes (s.setChoices_writes n)).wait wait
  | advance p can => exact State.advance_wait ports.holdsFit wait can
  | complete => exact (State.Tighter.of_writes s.completeLong_writes).wait wait
  | refuse y m =>
    have refused : s.Tighter none (s.refuseHold .holdLimit y) := ⟨fun _ _ o => o, fun _ k => List.mem_of_mem_erase k⟩
    exact refused.wait wait
  | expireBuffer b _ => exact State.expireBuffer_wait ports.holdsFit b
  | expireView p v _ => 
    exact ((State.Tighter.of_keeps (s.releaseView_keepsUpdates p v)).trans (.of_writes (State.post_writes ..))).wait wait
  | answers tr f _ => exact State.takeAnswers_wait ports.holdsFit wait tr f

theorem State.flushTaken_wait (ports : s.PortsLawful) (p : Port) : (s.flushTaken p).1.HoldsWait := by
  refine State.examineHolds_wait_of ports.holdsFit ?_
  rw [(State.releaseAll_keepsUpdates _ _).holds, s.abandonAll_holds]

theorem State.doRestart_wait (ports : s.PortsLawful) : s.doRestart.1.HoldsWait := by
  refine State.examineHolds_wait_of ports.holdsFit ?_
  have holds : (s.discardUpdates.releaseAll (s.viewsWhere fun _ _ => true)).pool.holds = s.pool.holds :=
    (State.releaseAll_keepsUpdates _ _).holds
  show List.Sublist (s.discardUpdates.releaseAll (s.viewsWhere fun _ _ => true)).pool.holds s.pool.holds
  rw [holds]

theorem Carried.holdsWait {x : Reply} (c : Carried s t x) (ports : s.PortsLawful) (wait : s.HoldsWait) : t.HoldsWait := by
  have writes : ∀ {fs : List Field} {t : State}, s.Writes fs t → (Field.pool ∉ fs) → t.HoldsWait := fun w n => (State.Tighter.of_writes w n).wait wait
  cases c with
  | done d => exact wait
  | fail c => exact wait
  | define r d _ _ _ => exact writes (s.setRegions_writes _) (by decide)
  | activate r _ _ => exact writes (s.setRegions_writes _) (by decide)
  | retire r m _ =>
    rw [s.retireTaken_eq]
    have drained : (s.drained r m).PortsLawful :=
      (ports.writes (s.setRegions_writes _)).acts (State.drained_acts (E := False) (G := False) ports.ready r m)
    exact State.examineHolds_wait drained.ports
  | clear r d _ => exact writes ((s.setRegions_writes _).seq (State.clearWatches_writes ..)) (by decide)
  | clean r k d _ _ => exact writes (s.setVersions_writes _) (by decide)
  | setWatch i w r d => exact writes (s.setWatch_writes ..) (by decide)
  | clearWatch i d => exact writes (s.setWatch_writes ..) (by decide)
  | readEvents n d => exact writes (s.setEvents_writes _) (by decide)
  | setMasks q a => exact writes (s.setEvents_writes _) (by decide)
  | flush p => exact State.flushTaken_wait ports p
  | restart => exact State.doRestart_wait ports

/-- Every step leaves each held write behind a staging limit (03 R56). -/
theorem State.holdsWait_kept : Kept fun s => s.PortsLawful ∧ s.HoldsWait := by
  have K := State.portsLawful_kept
  have writes : ∀ {fs : List Field} {s t : State}, s.Writes fs t → (Field.pool ∉ fs) → s.HoldsWait → t.HoldsWait :=
    fun w n h => (State.Tighter.of_writes w n).wait h
  refine ⟨fun s l ⟨p, h⟩ => ⟨K.pending s l p, writes (s.pending_writes l) (by decide) h⟩,
    fun s t q ⟨p, h⟩ => ⟨K.quiet s t q p, q.holdsWait p h⟩,
    fun s q ⟨p, h⟩ => ⟨K.portReset s q p, State.examineHolds_wait (p.resetPort q).ports⟩,
    fun s q r can formed ⟨p, h⟩ => ⟨K.taken s q r can formed p, writes (s.setPort_writes ..) (by decide) h⟩,
    fun s k un ⟨p, h⟩ => ⟨K.command s k un p, writes (State.conclude_writes ..) (by decide) ((s.carryOut_carried k).holdsWait p h)⟩,
    fun s _ => ⟨s.hardReset_portsLawful, nofun⟩,
    fun s ⟨p, h⟩ => ⟨K.lineFalls s p, writes (s.setHardResetLine_writes _) (by decide) h⟩,
    fun s q ⟨p, h⟩ => ⟨K.resetLineFalls s q p, writes (s.setPort_writes ..) (by decide) h⟩,
    fun s ⟨p, _⟩ ⟨p', h'⟩ => ⟨K.tick s p p', writes ((State.setTimebase_writes ..).seq (State.fillEntry_writes _)) (by decide) h'⟩,
    fun s ⟨p, h⟩ => ⟨K.grant s p, writes s.grant_writes (by decide) h⟩,
    fun s ⟨p, h⟩ => ⟨K.takeCommit s p, s.takeCommit_tighter.wait h⟩,
    fun s ⟨p, h⟩ => ⟨K.requestCapture s p, writes s.requestCapture_writes (by decide) h⟩,
    fun s t l ⟨p, h⟩ => ⟨K.link s t l p, writes l.writes (by decide) h⟩⟩

end

end Sys2Proof.Machine

/-! SUPPORT. No step leaves a timer past its limit (07 R122; 03 R57, R59; 05 R100; 06 R114): what starts a timer starts it now, and the end of a
microsecond expires every timer that is due. -/

namespace Sys2Proof.Machine

section
variable {E F G : Prop} {s t u : State} {p q : Port} {w : ViewIx}

/-! ### What an act does to a view (05 R85, R96, R103) -/

/-- A view stands, goes to FREE, is filled by the capture that fills it, which completes now, or opens in an ACTIVE region. -/
inductive State.ViewGoes (G : Prop) (s t : State) (q : Port) (w : ViewIx) : Prop
  | stands : t.view q w = s.view q w → s.ViewGoes G t q w
  | freed : (t.view q w).state = .free → s.ViewGoes G t q w
  | filled (c : Capture) : ¬G → c ∈ s.captures → c.view = some w → c.port = q → (t.view q w).region = (s.view q w).region →
      (t.view q w).completeTime = s.timebase → s.ViewGoes G t q w
  | opened : (s.region (t.view q w).region).state = .active → ((t.view q w).state = .held → (t.view q w).completeTime = s.timebase) →
      s.ViewGoes G t q w

theorem State.ViewGoes.of_views (h : t.views = s.views) (q : Port) (w : ViewIx) : s.ViewGoes G t q w := .stands (by rw [State.view, h]; rfl)

theorem State.ViewGoes.of_writes {fs : List Field} (h : s.Writes fs t) (q : Port) (w : ViewIx) (n : Field.views ∉ fs := by decide) :
    s.ViewGoes G t q w := .of_views (h.views n) q w

/-- One view goes to FREE. -/
theorem State.ViewGoes.of_freed {v : ViewIx} {x : View} (free : x.state = .free)
    (view : t.view q w = if q = p ∧ w = v then x else s.view q w) : s.ViewGoes G t q w := by
  by_cases e : q = p ∧ w = v
  · rw [if_pos e] at view
    exact .freed (by rw [view]; exact free)
  · rw [if_neg e] at view
    exact .stands view

theorem Act.views (a : Act E F G s t) (q : Port) (w : ViewIx) : s.ViewGoes G t q w := by
  have freed : ∀ {t : State} (p : Port) (v : ViewIx), t.views = (s.freeView p v).views → s.ViewGoes G t q w := fun {t} p v h => by
    refine .of_freed (p := p) (v := v) (x := { s.view p v with state := .free }) rfl ?_
    rw [State.view, h]
    exact s.freeView_view p q v w
  cases a with
  | other k => exact .of_writes k q w
  | mark b => exact .stands rfl
  | stage b k ws _ => exact .stands rfl
  | close b _ => exact .stands rfl
  | free b _ => exact .stands rfl
  | opening p x b _ _ _ _ _ => exact .stands rfl
  | openHeld y b _ _ _ => exact .stands rfl
  | hold p x ws r rest _ _ _ _ _ _ _ => exact .stands rfl
  | dropHold y => exact .stands rfl
  | dropHolds p => exact .stands rfl
  | discard => exact .stands rfl
  | take => exact .of_writes s.takeCommit_writes q w
  | commit job _ _ => exact .stands rfl
  | engine e _ _ => exact .stands rfl
  | freeView p v _ => exact freed p v rfl
  | withdraw p v c _ _ => exact freed p v (State.endCapture_outside_views ..).1
  | cancel p v c _ _ => exact freed p v (State.endCapture_outside_views ..).1
  | unview p v => exact freed p v rfl
  | openView p v r k _ _ active =>
    obtain ⟨x, region, -, view, -, -, time⟩ := s.openView_view p v r k
    specialize view q w
    by_cases e : q = p ∧ w = v
    · rw [if_pos e] at view
      refine .opened (by rw [view, region]; exact active) fun held => ?_
      rw [view] at held ⊢
      obtain ⟨-, now, -⟩ | ⟨capturing, -⟩ := time
      · exact now
      · rw [capturing] at held
        cases held
    · rw [if_neg e] at view
      exact .stands view
  | touch p v _ =>
    exact .stands (s.setUseList_view p q _ w)
  | endCapture c _ _ _ => exact .stands (s.endCapture_view c q w)
  | fill c v x g mem ev _ region _ time =>
    have view := (s.endCapture c).setView_view c.port q v w x
    rw [s.endCapture_view] at view
    by_cases e : q = c.port ∧ w = v
    · rw [if_pos e] at view
      obtain ⟨rfl, rfl⟩ := e
      exact .filled c g mem ev rfl (by rw [view]; exact region) (by rw [view]; exact time)
    · rw [if_neg e] at view
      exact .stands view
  | fail c v _ _ _ =>
    have view := (s.endCapture c).releaseView_view c.port q v w
    rw [s.endCapture_view c q w] at view
    exact .of_freed rfl view
  | relabel l _ _ => exact .stands rfl
  | serve p v _ _ _ => exact .stands rfl
  | request p r n x k _ _ _ => exact .stands rfl
  | respond p r rest _ _ => exact .stands rfl
  | endHeld p n st _ _ => exact .stands rfl
  | memory _ k => exact .of_writes k q w
  | loose _ _ k => exact .of_writes k q w

/-- Every view is of an ACTIVE region, or of one of these. -/
def State.ViewsOwnedBut (e : RegionId → Prop) (s : State) : Prop :=
  ∀ p v, (s.view p v).state ≠ .free → (s.region (s.view p v).region).state = .active ∨ e (s.view p v).region

/-- An act opens views in ACTIVE regions only. -/
theorem Act.viewsOwned {e : RegionId → Prop} (a : Act E F G s t) (lawful : s.ViewsLawful) (h : s.ViewsOwnedBut e) : t.ViewsOwnedBut e := by
  intro q w n
  have region : t.region = s.region := by unfold State.region; rw [a.writes.regions]
  rw [region]
  obtain same | free | ⟨c, -, mem, ev, rfl, same, -⟩ | ⟨active, -⟩ := a.views q w
  · rw [same] at n ⊢
    exact h q w n
  · exact absurd free n
  · rw [same]
    refine h c.port w ?_
    rw [(lawful.fills c mem w ev).1]
    nofun
  · exact .inl active

theorem Acts.viewsOwned {e : RegionId → Prop} (a : Acts E F G s t) (lawful : s.ViewsLawful) (h : s.ViewsOwnedBut e) : t.ViewsOwnedBut e :=
  (a.keeps (P := fun t => t.ViewsLawful ∧ t.ViewsOwnedBut e) (fun _ _ a ⟨l, k⟩ => ⟨l.act a, a.viewsOwned l k⟩) ⟨lawful, h⟩).2

/-- No view is of this region. -/
def State.NoViewOf (s : State) (r : RegionId) : Prop := ∀ p v, (s.view p v).state ≠ .free → (s.view p v).region ≠ r

/-- While no capture completes, no view of a region that is not ACTIVE comes to be. -/
theorem Acts.noViewOf {r : RegionId} (a : Acts E F True s t) (inactive : (s.region r).state ≠ .active) (h : s.NoViewOf r) : t.NoViewOf r := by
  refine (a.keeps (P := fun t => (t.region r).state ≠ .active ∧ t.NoViewOf r) (fun v u act ⟨inactive, unviewed⟩ => ?_) ⟨inactive, h⟩).2
  refine ⟨by unfold State.region; rw [act.writes.regions]; exact inactive, fun q w n e => ?_⟩
  obtain same | free | ⟨_, g, -⟩ | ⟨active, -⟩ := act.views q w
  · rw [same] at n e
    exact unviewed q w n e
  · exact n free
  · exact g trivial
  · exact inactive (e ▸ active)

end

end Sys2Proof.Machine

/-! SUPPORT. The timers of a step (07 R122): what starts one starts it now, each expiry ends its own, and so the expiries of one microsecond
end. -/

namespace Sys2Proof.Machine

section
variable {E F G : Prop} {s t u : State} {p q : Port} {x y : Timer}

/-! ### Where timers start (03 R57, R59; 05 R100; 06 R114) -/

/-- Each timer of the pool and of the views that runs ran before with the same start, or starts now. -/
structure State.KeepsStarts (s t : State) : Prop where
  timebase : t.timebase = s.timebase
  hold : ∀ h ∈ t.pool.holds, h ∈ s.pool.holds ∨ h.holdTime = s.timebase
  update : ∀ b, (t.buffer b).state = .gathering → ((s.buffer b).state = .gathering ∧ (t.buffer b).region = (s.buffer b).region ∧
    (t.buffer b).openingTime = (s.buffer b).openingTime) ∨ (t.buffer b).openingTime = s.timebase
  view : ∀ p v, (t.view p v).state = .held → ((s.view p v).state = .held ∧ (t.view p v).region = (s.view p v).region ∧
    (t.view p v).completeTime = (s.view p v).completeTime) ∨ (t.view p v).completeTime = s.timebase

theorem State.KeepsStarts.refl (s : State) : s.KeepsStarts s :=
  ⟨rfl, fun _ m => .inl m, fun _ g => .inl ⟨g, rfl, rfl⟩, fun _ _ h => .inl ⟨h, rfl, rfl⟩⟩

theorem State.KeepsStarts.trans (h : s.KeepsStarts t) (k : t.KeepsStarts u) : s.KeepsStarts u where
  timebase := k.timebase.trans h.timebase
  hold y m := by
    obtain m | now := k.hold y m
    · exact h.hold y m
    · exact .inr (now.trans h.timebase)
  update b g := by
    obtain ⟨g, region, time⟩ | now := k.update b g
    · rw [region, time]
      exact h.update b g
    · exact .inr (now.trans h.timebase)
  view p v o := by
    obtain ⟨o, region, time⟩ | now := k.view p v o
    · rw [region, time]
      exact h.view p v o
    · exact .inr (now.trans h.timebase)

theorem State.KeepsStarts.of_writes {fs : List Field} (w : s.Writes fs t) (p : Field.pool ∉ fs := by decide)
    (v : Field.views ∉ fs := by decide) (l : Field.timebase ∉ fs := by decide) : s.KeepsStarts t where
  timebase := w.timebase l
  hold y m := by rw [w.pool p] at m; exact .inl m
  update b g := by rw [State.buffer_congr (w.pool p)] at g ⊢; exact .inl ⟨g, rfl, rfl⟩
  view p x o := by
    have same : t.view p x = s.view p x := by rw [State.view, w.views v]; rfl
    rw [same] at o ⊢
    exact .inl ⟨o, rfl, rfl⟩

theorem Act.keepsStarts (a : Act E F G s t) : s.KeepsStarts t where
  timebase := a.writes.timebase
  hold y m := by
    obtain k | ⟨p, x, b, -, -, -, -, rfl⟩ | ⟨z, b, -, -, rfl⟩ | ⟨p, x, ws, -, -, rfl⟩ := a.noNewUpdates
    · exact .inl (k.holds.subset m)
    · exact .inl m
    · exact .inl (List.mem_of_mem_erase m)
    · obtain m | m := List.mem_append.1 m
      · exact .inl m
      · rw [List.mem_singleton.1 m]
        exact .inr rfl
  update b g := by
    have opens : ∀ {u : State} {p : Port} {x : Spot} {c : BufId}, u.timebase = s.timebase → u.pool.buffers = s.pool.buffers →
        ((u.openBuffer p x c).buffer b).state = .gathering → ((s.buffer b).state = .gathering ∧
          ((u.openBuffer p x c).buffer b).region = (s.buffer b).region ∧
          ((u.openBuffer p x c).buffer b).openingTime = (s.buffer b).openingTime) ∨
        ((u.openBuffer p x c).buffer b).openingTime = s.timebase := fun {u p x c} time same g => by
      rw [u.openBuffer_buffer] at g ⊢
      split
      · exact .inr time
      · next ne =>
        have buffer : u.buffer b = s.buffer b := by unfold State.buffer; rw [same]
        rw [if_neg ne, buffer] at g
        rw [buffer]
        exact .inl ⟨g, rfl, rfl⟩
    obtain k | ⟨p, x, c, -, -, -, -, rfl⟩ | ⟨z, c, -, -, rfl⟩ | ⟨p, x, ws, -, -, rfl⟩ := a.noNewUpdates
    · obtain ⟨g, region, -, -, time⟩ := k.updates b g
      exact .inl ⟨g, region, time⟩
    · exact opens rfl rfl g
    · exact opens rfl rfl g
    · exact .inl ⟨g, rfl, rfl⟩
  view p v o := by
    obtain same | free | ⟨c, -, -, -, -, -, now⟩ | ⟨-, now⟩ := a.views p v
    · rw [same] at o ⊢
      exact .inl ⟨o, rfl, rfl⟩
    · rw [free] at o
      cases o
    · exact .inr now
    · exact .inr (now o)

theorem Acts.keepsStarts (a : Acts E F G s t) : s.KeepsStarts t :=
  a.keeps (P := s.KeepsStarts) (fun _ _ a k => k.trans a.keepsStarts) (.refl s)

/-- The memory port's transaction, if it has one, ran before with the same grant time, or starts now. -/
def State.KeepsGrant (s t : State) : Prop :=
  ∀ tr, t.mem.outstanding = some tr → (∃ old, s.mem.outstanding = some old ∧ tr.grantTime = old.grantTime) ∨ tr.grantTime = s.timebase

theorem State.KeepsGrant.of_same (h : t.mem.outstanding = s.mem.outstanding) : s.KeepsGrant t := fun tr o => .inl ⟨tr, h ▸ o, rfl⟩

theorem State.KeepsGrant.of_writes {fs : List Field} (w : s.Writes fs t) (n : Field.outstanding ∉ fs := by decide) : s.KeepsGrant t :=
  .of_same (w.outstanding n)

theorem State.KeepsGrant.of_none (h : t.mem.outstanding = none) : s.KeepsGrant t := fun _ o => nomatch h.symm.trans o

theorem State.KeepsGrant.trans (h : s.KeepsGrant t) (time : t.timebase = s.timebase) (k : t.KeepsGrant u) : s.KeepsGrant u := fun tr o => by
  obtain ⟨old, o, e⟩ | now := k tr o
  · rw [e]
    exact h old o
  · exact .inr (now.trans time)

theorem State.takeAnswers_grant {tr : Transaction} (out : s.mem.outstanding = some tr) (f : List Answer → List Answer) :
    s.KeepsGrant (s.takeAnswers tr f) := by
  by_cases all : allAnswered (f tr.answers) = true
  · rw [State.takeAnswers_ended all]
    exact .of_none (s.ended_outstanding tr f)
  · rw [s.takeAnswers_eq, if_neg all]
    intro new o
    have mem := s.recordAnswers_mem tr f
    rw [mem] at o
    cases o
    exact .inl ⟨tr, out, rfl⟩

theorem Quiet.keepsGrant (k : Quiet s t) : s.KeepsGrant t := by
  cases k with
  | choose n => exact .of_same rfl
  | advance p _ => exact .of_writes (s.advance_writes p)
  | complete => exact .of_writes s.completeLong_writes
  | refuse y _ => exact .of_writes (s.refuseHold_writes ..)
  | expireBuffer b _ => exact .of_writes (s.expireBuffer_writes b)
  | expireView p v _ => exact .of_writes (s.expireView_writes p v)
  | answers tr f out => exact State.takeAnswers_grant out f

theorem Quiet.keepsStarts (k : Quiet s t) (ports : s.PortsLawful) : s.KeepsStarts t := by
  obtain a | rfl := k.acts (G := False) ports.ready id
  · exact a.keepsStarts
  · exact .of_writes s.completeLong_writes

/-! ### What is due (07 R122) -/

/-- Whatever happens without a tick makes no timer due: those that start now are not, and the others ran before. -/
theorem State.Due.before (starts : s.KeepsStarts t) (grant : s.KeepsGrant t) (definition : ∀ r, t.definition r = s.definition r)
    (h : t.Due x) : s.Due x := by
  have now : ∀ {n : Word}, n = s.timebase → (t.timebase - n).toNat = 0 := fun e => by
    rw [e, starts.timebase, BitVec.sub_self]
    rfl
  cases x with
  | hold p =>
    obtain ⟨y, m, port, time⟩ := h
    obtain m | new := starts.hold y m
    · exact ⟨y, m, port, starts.timebase ▸ time⟩
    · rw [now new] at time
      cases time
  | update b =>
    obtain ⟨g, limit, time⟩ := h
    rw [definition] at limit time
    obtain ⟨g, region, start⟩ | new := starts.update b g
    · rw [region] at limit time
      rw [start, starts.timebase] at time
      exact ⟨g, limit, time⟩
    · rw [now new] at time
      exact absurd time.symm limit
  | view p v =>
    obtain ⟨o, limit, time⟩ := h
    rw [definition] at limit time
    obtain ⟨o, region, start⟩ | new := starts.view p v o
    · rw [region] at limit time
      rw [start, starts.timebase] at time
      exact ⟨o, limit, time⟩
    · rw [now new] at time
      exact absurd time.symm limit
  | memory =>
    obtain ⟨tr, out, time⟩ := h
    obtain ⟨old, out, start⟩ | new := grant tr out
    · rw [start, starts.timebase] at time
      exact ⟨old, out, time⟩
    · rw [now new] at time
      cases time

theorem Quiet.definition (k : Quiet s t) (r : RegionId) : t.definition r = s.definition r := by
  obtain same | rfl := k.rests
  · unfold State.definition State.region
    rw [same.regions]
  · exact s.completeLong_definition r

/-- What happens without a command or a tick leaves no timer due that was not. -/
theorem Quiets.due (k : Quiets s t) (ports : s.PortsLawful) (h : t.Due x) : s.Due x := by
  have both : t.PortsLawful ∧ (t.Due x → s.Due x) := by
    refine k.keeps (P := fun t => t.PortsLawful ∧ (t.Due x → s.Due x)) (fun t u k ⟨l, d⟩ => ?_) ⟨ports, id⟩
    exact ⟨State.portsLawful_kept.quiet _ _ k l, fun n => d (n.before (k.keepsStarts l) k.keepsGrant k.definition)⟩
  exact both.2 h

/-! ### Each expiry ends its own timer -/

theorem State.refuseHold_notDue (ports : s.PortsLawful) {y : HeldWrite} (m : y ∈ s.pool.holds) (c : RefusedCause) :
    ¬ (s.refuseHold c y).Due (.hold y.port) := by
  rintro ⟨z, m', port, -⟩
  exact ports.holdsFit.erase_unheld m z m' port

theorem State.examineHolds_starts (ports : s.PortsLawful) : s.KeepsStarts s.examineHolds :=
  (State.examineHolds_acts (E := False) (F := True) (G := False) ports.ready).keepsStarts

theorem State.expireBuffer_notDue (ports : s.PortsLawful) (b : BufId) : ¬ (s.expireBuffer b).Due (.update b) := by
  have ended : ∀ t : State, t.pool.holds = s.pool.holds → t.ports = s.ports → (t.buffer b).state ≠ .gathering →
      ¬ t.examineHolds.Due (.update b) := fun t holds same n d => by
    have w := t.examineHolds_writes
    have lawful : t.PortsLawful := ports.congr same holds
    refine n (d.before (State.examineHolds_starts lawful) (.of_writes w) fun r => ?_).1
    unfold State.definition State.region
    rw [w.regions]
  unfold State.expireBuffer
  dsimp only
  split
  · refine ended _ rfl rfl ?_
    show ((s.freeGathering b).buffer b).state ≠ .gathering
    rw [State.freeGathering_buffer_same]
    nofun
  · refine ended _ rfl rfl ?_
    show ((s.closeBuffer b).buffer b).state ≠ .gathering
    rw [State.closeBuffer_buffer_same]
    nofun

theorem State.expireView_notDue (s : State) (p : Port) (v : ViewIx) : ¬ (s.expireView p v).Due (.view p v) := by
  rintro ⟨held, -⟩
  have view : (s.expireView p v).view p v = (s.releaseView p v).view p v := rfl
  rw [view, State.releaseView_view, if_pos ⟨rfl, rfl⟩] at held
  cases held

theorem State.expires_notDue (ports : s.PortsLawful) (d : s.timerDue x = true) : ¬ (s.expires x).Due x := by
  have was : s.Due x := .of_timerDue d
  cases x with
  | hold p =>
    obtain ⟨y, m, rfl, -⟩ := was
    have held : s.heldOf y.port = some y := ports.heldOf m
    unfold State.expires State.limitHold
    simp only [held]
    exact State.refuseHold_notDue ports m _
  | update b => exact State.expireBuffer_notDue ports b
  | view p v => exact s.expireView_notDue p v
  | memory =>
    obtain ⟨tr, out, time⟩ := was
    have ends : s.memoryTimeout = s.ended tr closeUnanswered := by
      unfold State.memoryTimeout
      simp only [out]
      rw [if_pos (by unfold due; rw [beq_iff_eq]; exact time), State.takeAnswers_ended (closeUnanswered_all _)]
    rintro ⟨new, o, -⟩
    rw [State.expires, ends, s.ended_outstanding] at o
    cases o

/-! ### The expiries of a microsecond end -/

/-- The timer that a free choice names is due. -/
theorem State.chosen_due {xs : List Timer} (h : s.dueTimers = x :: y :: xs) (n : Nat) :
    s.timerDue ((x :: y :: xs).getD (n % (x :: y :: xs).length) x) = true := by
  have lt : n % (x :: y :: xs).length < (x :: y :: xs).length := Nat.mod_lt _ (by simp)
  refine (s.mem_dueTimers _).1 ?_
  rw [h, List.getD_eq_getElem _ _ lt]
  exact List.getElem_mem lt

theorem State.dueTimers_lt (ports : s.PortsLawful) (d : s.timerDue x = true) : (s.expire x).dueTimers.length < s.dueTimers.length := by
  have quiet := (s.expires_quiet x d).to_reflTransGen
  have expired : (s.expires x).PortsLawful := State.portsLawful_kept.quiets quiet ports
  rw [s.expire_eq]
  have settled := State.settle_quiets (s.expires x)
  have mine : x ∈ s.dueTimers := (s.mem_dueTimers x).2 d
  have fewer : (s.expires x).settle.dueTimers ⊆ s.dueTimers.erase x := fun y m => by
    have due : (s.expires x).settle.Due y := .of_timerDue ((State.mem_dueTimers _ y).1 m)
    have was : (s.expires x).Due y := Quiets.due settled expired due
    have ne : y ≠ x := by
      rintro rfl
      exact State.expires_notDue ports d was
    exact (List.mem_erase_of_ne ne).2 ((s.mem_dueTimers y).2 ((Quiets.due quiet ports was).timerDue ports))
  have le : (s.expires x).settle.dueTimers.length ≤ (s.dueTimers.erase x).length :=
    (List.subperm_of_subset (allTimers_nodup.filter _) fewer).length_le
  rw [List.length_erase_of_mem mine] at le
  have := List.length_pos_of_mem mine
  omega

theorem runTimers_ends {n : Nat} (ports : s.PortsLawful) (le : s.dueTimers.length ≤ n) : (runTimers n s).dueTimers = [] := by
  induction n generalizing s with
  | zero => exact List.eq_nil_of_length_eq_zero (Nat.le_zero.1 le)
  | succ n ih =>
    have kept : ∀ {u : State} {x : Timer}, u.PortsLawful → u.timerDue x = true → (u.expire x).PortsLawful := fun {u x} l d => by
      rw [u.expire_eq]
      exact State.portsLawful_kept.quiets ((u.expires_quiet x d).to_reflTransGen.trans (State.settle_quiets _)) l
    unfold runTimers
    split
    · next e => exact e
    · next x e =>
      have d : s.timerDue x = true := (s.mem_dueTimers x).1 (e ▸ List.mem_cons_self)
      exact ih (kept ports d) (by have := State.dueTimers_lt ports d; omega)
    · next x y xs e =>
      have chosen : (s.setChoices (s.choices + 1)).PortsLawful := ports.writes (s.setChoices_writes _)
      have d : (s.setChoices (s.choices + 1)).timerDue
          ((x :: y :: xs).getD (Config.freeChoice s.choices % (x :: y :: xs).length) x) = true := s.chosen_due e _
      have less := State.dueTimers_lt chosen d
      have same : (s.setChoices (s.choices + 1)).dueTimers = s.dueTimers := rfl
      rw [same] at less
      exact ih (kept chosen d) (by omega)

theorem State.expireDue_ends (ports : s.PortsLawful) : ∀ x, ¬ s.expireDue.Due x := fun x d => by
  have lawful : s.expireDue.PortsLawful := State.portsLawful_kept.quiets s.expireDue_quiets ports
  have none : s.expireDue.dueTimers = [] := runTimers_ends ports (List.length_filter_le ..)
  have m := (s.expireDue.mem_dueTimers x).2 (d.timerDue lawful)
  rw [none] at m
  cases m

end

end Sys2Proof.Machine

/-! SUPPORT. The timers' law through every step (07 R122), and the part at rest (95). -/

namespace Sys2Proof.Machine

section
variable {s t u : State} {p q : Port}

/-! ### RETIRE's views (05 R106) -/

theorem State.unviewed_view (s : State) (r : RegionId) (q : Port) (w : ViewIx) : (s.unviewed r).view q w =
    if (s.view q w).region = r then { s.view q w with state := .free } else s.view q w := by
  have given := ((s.setRegionState r .draining).releaseAll (s.viewsWhere fun _ x => x.region = r)).giveBackAwaiting_writes r
  have same : (s.unviewed r).view q w = ((s.setRegionState r .draining).releaseAll (s.viewsWhere fun _ x => x.region = r)).view q w := by
    unfold State.view
    rw [show (s.unviewed r).views = _ from given.views]
  rw [same, State.releaseWhere_view (s := s) (t := s.setRegionState r .draining) rfl]
  simp only [decide_eq_true_eq]

theorem State.undone_writes (s : State) (r : RegionId) (m : DrainMode) : (s.unviewed r).Writes [.pool, .events, .captures] (s.undone r m) := by
  cases m with
  | abandon => exact (State.Writes.foldl (fun s b => s.abandonBuffer_writes .retire b) _ _).mono
  | close => exact (State.Writes.foldl (fun s b => s.closeBuffer_writes b) _ _).mono

theorem State.retireTaken_views (s : State) (r : RegionId) (m : DrainMode) : (s.retireTaken r m).1.views = (s.unviewed r).views := by
  have refused : (s.undone r m).Writes [.pool, .events, .ports] (s.drained r m) :=
    State.Writes.foldl (fun s h => s.refuseHold_writes .retired h) _ _
  rw [State.retireTaken_eq, (State.examineHolds_writes _).views, refused.views, (s.undone_writes r m).views]

/-- RETIRE leaves no view of its region. -/
theorem State.retireTaken_view (s : State) (r : RegionId) (m : DrainMode) (q : Port) (w : ViewIx) :
    (s.retireTaken r m).1.view q w = if (s.view q w).region = r then { s.view q w with state := .free } else s.view q w := by
  rw [← s.unviewed_view]
  unfold State.view
  rw [s.retireTaken_views]

/-! ### The owners of views (05 R100, R106) -/

/-- The law of timers, with the laws it rests on. -/
structure State.Timed (s : State) : Prop where
  regions : s.RegionsLawful
  updating : s.Updating False fun _ => False
  views : s.ViewsLawful
  timers : s.TimersLawful

theorem State.Timed.ports (h : s.Timed) : s.PortsLawful := h.updating.ports

theorem State.Timed.owned (h : s.Timed) : s.ViewsOwnedBut fun _ => False := fun p v n => .inl (h.timers.owned p v n)

theorem State.Timed.region_active (h : s.Timed) {b : BufId} (g : (s.buffer b).state = .gathering) : (s.region (s.buffer b).region).state = .active :=
  (h.updating.owned.buffers b g).1.resolve_right id

/-- The law of timers holds on, where each timer that runs ran before or starts now, and the definitions of ACTIVE regions stand. -/
theorem State.Timed.later (h : s.Timed) (starts : s.KeepsStarts t) (grant : s.KeepsGrant t)
    (definition : ∀ r, (s.region r).state = .active → t.definition r = s.definition r) (owned : t.ViewsOwnedBut fun _ => False) :
    t.TimersLawful := by
  have now : ∀ {n : Word}, n = s.timebase → (t.timebase - n).toNat = 0 := fun e => by
    rw [e, starts.timebase, BitVec.sub_self]
    rfl
  refine ⟨fun y m => ?_, fun b g limit => ?_, fun p v o limit => ?_, fun tr out => ?_, fun p v n => (owned p v n).resolve_right id⟩
  · obtain m | new := starts.hold y m
    · rw [starts.timebase]
      exact h.timers.hold y m
    · rw [now new]
      exact Nat.zero_le _
  · obtain ⟨g, region, start⟩ | new := starts.update b g
    · rw [region, definition _ (h.region_active g)] at limit ⊢
      rw [start, starts.timebase]
      exact h.timers.update b g limit
    · rw [now new]
      exact Nat.zero_le _
  · obtain ⟨o, region, start⟩ | new := starts.view p v o
    · have n : (s.view p v).state ≠ .free := by rw [o]; nofun
      rw [region, definition _ (h.timers.owned p v n)] at limit ⊢
      rw [start, starts.timebase]
      exact h.timers.view p v o limit
    · rw [now new]
      exact Nat.zero_le _
  · obtain ⟨old, out, start⟩ | new := grant tr out
    · rw [start, starts.timebase]
      exact h.timers.memory old out
    · rw [now new]
      exact Nat.zero_le _

/-- What writes neither the views nor a region's state or definition while it is ACTIVE leaves the views' owners. -/
theorem State.ViewsOwnedBut.of_regions (h : s.ViewsOwnedBut fun _ => False) (views : t.views = s.views)
    (still : ∀ r, (s.region r).state = .active → (t.region r).state = .active) : t.ViewsOwnedBut fun _ => False := fun p v n => by
  have same : t.view p v = s.view p v := by rw [State.view, views]; rfl
  rw [same] at n ⊢
  exact .inl (still _ ((h p v n).resolve_right id))

/-- What writes no timer, no view and no region. -/
theorem State.Timed.of_writes (h : s.Timed) {fs : List Field} (w : s.Writes fs t) (p : Field.pool ∉ fs := by decide)
    (v : Field.views ∉ fs := by decide) (l : Field.timebase ∉ fs := by decide) (o : Field.outstanding ∉ fs := by decide)
    (r : Field.regions ∉ fs := by decide) : t.TimersLawful := by
  have region : t.region = s.region := by unfold State.region; rw [w.regions r]
  refine h.later (.of_writes w p v l) (.of_writes w o) (fun q _ => ?_) (h.owned.of_regions (w.views v) fun q a => by rwa [region])
  unfold State.definition
  rw [region]

/-- What writes a region that is not ACTIVE, to the same or another definition. -/
theorem State.Timed.setRegion (h : s.Timed) {r : RegionId} (was : (s.region r).state ≠ .active) (x : Region) {fs : List Field}
    (w : (s.setRegion r x).Writes fs t) (p : Field.pool ∉ fs := by decide) (v : Field.views ∉ fs := by decide)
    (l : Field.timebase ∉ fs := by decide) (o : Field.outstanding ∉ fs := by decide) (g : Field.regions ∉ fs := by decide) :
    t.TimersLawful := by
  have region : ∀ q, (s.region q).state = .active → t.region q = s.region q := fun q a => by
    have ne : q ≠ r := by
      rintro rfl
      exact was a
    have same : t.region q = (s.setRegion r x).region q := by unfold State.region; rw [w.regions g]
    rw [same, State.setRegion_region, if_neg ne]
  have starts : s.KeepsStarts (s.setRegion r x) := .of_writes (s.setRegions_writes _)
  refine h.later (starts.trans (.of_writes w p v l)) (.of_same (w.outstanding o)) (fun q a => ?_) (h.owned.of_regions (w.views v) fun q a => by rwa [region q a])
  unfold State.definition
  rw [region q a]

/-- Acts keep the law, where they start no transaction. -/
theorem State.Timed.acts {E F G : Prop} (h : s.Timed) (a : Acts E F G s t) (grant : s.KeepsGrant t) : t.TimersLawful := by
  refine h.later a.keepsStarts grant (fun r _ => ?_) (a.viewsOwned h.views h.owned)
  unfold State.definition State.region
  rw [a.writes.regions]

theorem State.Timed.completeLong (h : s.Timed) : s.completeLong.TimersLawful :=
  h.later (.of_writes s.completeLong_writes) (.of_writes s.completeLong_writes) (fun r _ => s.completeLong_definition r)
    (h.owned.of_regions s.completeLong_writes.views fun _ a => State.completeLong_active h.regions a)

theorem State.Timed.quiet (h : s.Timed) (k : Quiet s t) : t.TimersLawful := by
  obtain a | rfl := k.acts (G := False) h.updating.ready id
  · exact h.acts a k.keepsGrant
  · exact h.completeLong

/-! ### The arrivals -/

theorem State.Timed.resetPort (h : s.Timed) (p : Port) : (s.resetPort p).examineHolds.TimersLawful := by
  have dropped := s.dropRequests_writes p
  have ready : ∀ u, Ready False False u := fun _ => ⟨False.elim, False.elim⟩
  have unported : Acts False False False (s.dropRequests p) (s.unported p) := State.unported_acts False.elim p
  have released : Acts False False False (s.dropRequests p) ((s.unported p).releaseAll (s.viewsOfPort p)) :=
    unported.trans (State.releaseAll_acts (ready _) _)
  have examined : Acts False False False (s.resetPort p) (s.resetPort p).examineHolds := State.examineHolds_acts (ready _)
  have owned := released.viewsOwned (h.views.writes dropped) (h.owned.of_regions dropped.views fun _ a => a)
  have plain := State.resetPlain_writes ((s.unported p).releaseAll (s.viewsOfPort p)) p
  have reset : s.KeepsStarts (s.resetPort p) := by
    rw [s.resetPort_eq]
    exact (State.KeepsStarts.of_writes dropped).trans (released.keepsStarts.trans (.of_writes plain))
  have before : ((s.unported p).releaseAll (s.viewsOfPort p)).mem.outstanding = s.mem.outstanding := by
    have abandoned := (s.dropRequests p).abandonAll_writes p .portReset
    have hold := ((s.dropRequests p).abandonAll p .portReset).dropHold_writes p
    exact ((State.releaseAll_writes _ _).outstanding.trans hold.outstanding).trans (abandoned.outstanding.trans dropped.outstanding)
  have grant : s.KeepsGrant (s.resetPort p) := by
    rw [s.resetPort_eq]
    rintro tr out
    have mapped : Option.map (fun t => if isPlainOf p t then { t with discard := true } else t)
        ((s.unported p).releaseAll (s.viewsOfPort p)).mem.outstanding = some tr := out
    rw [before, Option.map_eq_some_iff] at mapped
    obtain ⟨old, o, rfl⟩ := mapped
    refine .inl ⟨old, o, ?_⟩
    split <;> rfl
  have last := State.examineHolds_writes (s.resetPort p)
  have regions : (s.resetPort p).regions = s.regions := (s.resetPort_writes p).regions
  refine h.later (reset.trans examined.keepsStarts) (grant.trans reset.timebase (.of_writes last)) (fun r _ => ?_) ?_
  · unfold State.definition State.region
    rw [last.regions, regions]
  · have lawful := (State.viewsLawful_kept.portReset s p h.views)
    refine State.ViewsOwnedBut.of_regions (s := (s.unported p).releaseAll (s.viewsOfPort p)) owned ?_ fun r a => ?_
    · rw [last.views, s.resetPort_eq, plain.views]
    · rw [s.resetPort_eq] at last
      unfold State.region at a ⊢
      rwa [s.resetPort_eq, last.regions, plain.regions]

theorem State.Timed.retireTaken (h : s.Timed) (r : RegionId) (m : DrainMode) : (s.retireTaken r m).1.TimersLawful := by
  have draining : s.KeepsStarts (s.setRegionState r .draining) := .of_writes (s.setRegions_writes _)
  have taken : Acts False True False (s.setRegionState r .draining) (s.retireTaken r m).1 := State.retireTaken_acts h.ports.ready r m
  refine h.later (draining.trans taken.keepsStarts) (.of_writes (s.retireTaken_writes r m)) (fun q _ => ?_) fun q w n => ?_
  · have same : (s.retireTaken r m).1.definition q = (s.setRegionState r .draining).definition q := by
      unfold State.definition State.region
      rw [taken.writes.regions]
    rw [same, s.setRegionState_definition]
  · have view := s.retireTaken_view r m q w
    have region : (s.retireTaken r m).1.region = (s.setRegionState r .draining).region := by
      unfold State.region
      rw [taken.writes.regions]
    by_cases e : (s.view q w).region = r
    · rw [if_pos e] at view
      rw [view] at n
      exact absurd rfl n
    · rw [if_neg e] at view
      rw [view] at n ⊢
      rw [region, State.setRegionState_state, if_neg e]
      exact h.owned q w n

theorem Carried.timersLawful {x : Reply} (c : Carried s t x) (h : s.Timed) : t.TimersLawful := by
  cases c with
  | done d => exact h.timers
  | fail c => exact h.timers
  | define r d allowed _ _ => exact h.setRegion (r := r) (by obtain e | e := allowed <;> rw [e] <;> nofun) _ (.refl [] _)
  | activate r allowed _ => exact h.setRegion (r := r) (by rw [allowed]; nofun) _ (.refl [] _)
  | retire r m _ => exact h.retireTaken r m
  | clear r d allowed => exact h.setRegion (r := r) (by rw [allowed]; nofun) .emptyEntry (State.clearWatches_writes ..)
  | clean r k d _ _ => exact h.of_writes (s.setVersions_writes _)
  | setWatch i w r d => exact h.of_writes (s.setWatch_writes ..)
  | clearWatch i d => exact h.of_writes (s.setWatch_writes ..)
  | readEvents n d => exact h.of_writes (s.setEvents_writes _)
  | setMasks q a => exact h.of_writes (s.setEvents_writes _)
  | flush p => exact h.acts (State.flushTaken_acts (E := False) (G := False) h.ports.ready p) (.of_writes (s.flushTaken_writes p))
  | restart => exact h.acts (State.doRestart_acts (E := False) (G := False) h.ports.ready) (.of_writes s.doRestart_writes)

/-- The law reads nothing of the link. -/
theorem State.TimersLawful.conclude (h : s.TimersLawful) (x : Reply) : (s.conclude x).TimersLawful := by
  cases x <;> exact ⟨h.hold, h.update, h.view, h.memory, h.owned⟩

/-- A grant starts the memory timer now (06 R112). -/
theorem State.grant_keepsGrant (s : State) : s.KeepsGrant s.grant := by
  unfold State.grant
  split
  · exact .of_same rfl
  · split
    · exact .of_same rfl
    · split
      · exact .of_same rfl
      · intro tr out
        have told := State.tellGrant_writes _ _ |>.outstanding.symm.trans out
        cases told
        exact .inr rfl

/-! ### The tick (07 R121, R122) -/

theorem elapsed_succ_le {now start : Word} {limit : Nat} (le : (now - start).toNat ≤ limit) (ne : (now - start).toNat ≠ limit) :
    (now + 1 - start).toNat ≤ limit := by
  have later : now + 1 - start = (now - start) + 1 := by ring
  rw [later, BitVec.toNat_add]
  exact (Nat.mod_le _ _).trans (by show (now - start).toNat + 1 ≤ limit; omega)

/-- With no timer due, the next microsecond leaves none past its limit. -/
theorem State.Timed.nextMicrosecond (h : s.Timed) (none : ∀ x, ¬ s.Due x) : ((s.setTimebase (s.timebase + 1)).fillEntry).TimersLawful := by
  have later : (s.setTimebase (s.timebase + 1)).TimersLawful :=
    ⟨fun y m => elapsed_succ_le (h.timers.hold y m) fun e => none (.hold y.port) ⟨y, m, rfl, e⟩,
      fun b g limit => elapsed_succ_le (h.timers.update b g limit) fun e => none (.update b) ⟨g, limit, e⟩,
      fun p v o limit => elapsed_succ_le (h.timers.view p v o limit) fun e => none (.view p v) ⟨o, limit, e⟩,
      fun tr out => elapsed_succ_le (h.timers.memory tr out) fun e => none .memory ⟨tr, out, e⟩, h.timers.owned⟩
  have ticked : (s.setTimebase (s.timebase + 1)).Timed :=
    ⟨h.regions.rests ⟨rfl, rfl⟩, h.updating.writes (s.setTimebase_writes _), h.views.writes (s.setTimebase_writes _), later⟩
  have w := (s.setTimebase (s.timebase + 1)).fillEntry_writes
  exact ticked.later (.of_writes w) (.of_writes w) (fun r _ => State.fillEntry_definition _ r)
    (ticked.owned.of_regions w.views fun _ a => State.fillEntry_active ticked.regions a)

theorem State.timed_kept : Kept State.Timed := by
  have U := State.updating_kept False
  have V := State.viewsLawful_kept
  have of : ∀ {s t : State}, s.Timed → (s.RegionsLawful ∧ s.Updating False (fun _ => False) → t.RegionsLawful ∧ t.Updating False fun _ => False) →
      (s.ViewsLawful → t.ViewsLawful) → t.TimersLawful → t.Timed := fun h u v timers =>
    ⟨(u ⟨h.regions, h.updating⟩).1, (u ⟨h.regions, h.updating⟩).2, v h.views, timers⟩
  have quiet : ∀ s t, Quiet s t → s.Timed → t.Timed := fun s t q h => of h (U.quiet s t q) (V.quiet s t q) (h.quiet q)
  refine ⟨fun s l h => of h (U.pending s l) (V.pending s l) (h.of_writes (s.pending_writes l)), quiet,
    fun s p h => of h (U.portReset s p) (V.portReset s p) (h.resetPort p),
    fun s p r can formed h => of h (U.taken s p r can formed) (V.taken s p r can formed) (h.of_writes (s.setPort_writes ..)),
    fun s k un h => of h (U.command s k un) (V.command s k un) ?_,
    fun s h => of h (U.hardReset s) (V.hardReset s) s.hardReset_timersLawful,
    fun s h => of h (U.lineFalls s) (V.lineFalls s) (h.of_writes (s.setHardResetLine_writes _)),
    fun s p h => of h (U.resetLineFalls s p) (V.resetLineFalls s p) (h.of_writes (s.setPort_writes ..)),
    fun s h k => of h (fun a => U.tick s a ⟨k.regions, k.updating⟩) (fun a => V.tick s a k.views) (k.nextMicrosecond (State.expireDue_ends h.ports)),
    fun s h => of h (U.grant s) (V.grant s) (h.acts (s.grant_acts (E := False) (F := False) (G := False) id) s.grant_keepsGrant),
    fun s h => of h (U.takeCommit s) (V.takeCommit s)
      (h.acts (.single (.take (E := False) (F := False) (G := False) s)) (.of_writes s.takeCommit_writes)),
    fun s h => of h (U.requestCapture s) (V.requestCapture s) (h.of_writes s.requestCapture_writes),
    fun s t l h => of h (U.link s t l) (V.link s t l) (h.of_writes l.writes)⟩
  exact ((s.carryOut_carried k).timersLawful h).conclude (s.carryOut k).2

end

/-- Settles O56: the routers' moves end, one examination of the held writes suffices, and each tick first expires every timer due. -/
theorem everyStepLeavesThePartAtRest : Obligations.EveryStepLeavesThePartAtRest := by
  refine ⟨fun s t ports rest e => ⟨State.portsLawful_kept.step e ports, rest.step ports e⟩, fun s t _ ports wait e => ?_,
    fun s t regions pool ports views owned timers e => ?_⟩
  · exact (State.holdsWait_kept.step e ⟨ports, wait⟩).2
  · have updating : s.Updating False fun _ => False := ⟨pool, ports, s.updatesOwned_iff.1 owned, False.elim⟩
    exact (State.timed_kept.step e ⟨regions, updating, views, timers⟩).timers

end Sys2Proof.Machine

/-! SUPPORT. The port reset (02 R38, R39; 03 R63; 05 R104; 06 R118): what it writes, and that what follows spares the port. -/

namespace Sys2Proof.Machine

section
variable {s t u : State} {p q : Port}

/-! ### The assertion of the line -/

theorem State.resetPort_after (s : State) (p : Port) :
    (s.dropRequests p).Writes [.pool, .events, .views, .captures, .capture, .ports, .plain, .outstanding] (s.resetPort p) := by
  rw [s.resetPort_eq]
  exact ((((State.abandonAll_writes _ p .portReset).seq (State.dropHold_writes _ p)).seq (State.releaseAll_writes _ _)).seq
    (State.resetPlain_writes _ p)).mono

/-- The port is as its line's assertion makes it, and the others stand. -/
theorem State.resetPort_port (s : State) (p q : Port) : (s.resetPort p).port q =
    if q = p then { s.port p with queue := [], service := .fresh, resetLine := true } else s.port q := by
  have plain := State.resetPlain_writes ((s.unported p).releaseAll (s.viewsOfPort p)) p
  have unported : (s.unported p).port q =
      if q = p then { s.port p with queue := [], service := .fresh, resetLine := true } else s.port q := by
    have after : (s.dropRequests p).Writes [.pool, .events] (s.unported p) :=
      ((State.abandonAll_writes _ p .portReset).seq (State.dropHold_writes ..)).mono
    rw [State.port_of_ports after.ports]
    exact s.setPort_port p q _
  rw [s.resetPort_eq, State.port_congr plain.ports, State.releaseAll_port_kept, unported]
  rintro ⟨x, v, piece, -, mem⟩
  obtain ⟨-, rfl⟩ := mem_viewsOfPort.1 mem
  rw [unported, if_pos rfl] at piece
  cases piece

theorem State.resetPort_view (s : State) (p q : Port) (v : ViewIx) : (s.resetPort p).view q v =
    if q = p then { s.view q v with state := .free } else s.view q v := by
  have unported : (s.unported p).views = s.views :=
    ((State.abandonAll_writes _ p .portReset).seq (State.dropHold_writes _ p)).views.trans (s.dropRequests_writes p).views
  have released := State.releaseWhere_view unported (fun q _ => q = p) q v
  simp only [decide_eq_true_eq] at released
  exact released

theorem State.resetPort_others (s : State) (ne : q ≠ p) : (s.resetPort p).views.get q = s.views.get q := by
  have unported : (s.unported p).views = s.views :=
    ((State.abandonAll_writes _ p .portReset).seq (State.dropHold_writes _ p)).views.trans (s.dropRequests_writes p).views
  have released : ((s.unported p).releaseAll (s.viewsOfPort p)).views.get q = (s.unported p).views.get q :=
    State.releaseAll_others (fun pv m e => ne ((mem_viewsOfPort.1 m).2 ▸ e).symm) _
  rw [s.resetPort_eq, (State.resetPlain_writes _ p).views, released, unported]

theorem State.resetPort_pool (s : State) (p : Port) : (s.unported p).KeepsUpdates (s.resetPort p) := by
  rw [s.resetPort_eq]
  exact (State.releaseAll_keepsUpdates _ _).trans (.of_writes (State.resetPlain_writes _ p))

theorem State.resetPort_holds (s : State) (p : Port) : (s.resetPort p).pool.holds = s.pool.holds.filter fun h => h.port != p := by
  rw [(s.resetPort_pool p).holds]
  show List.filter _ ((s.dropRequests p).abandonAll p .portReset).pool.holds = _
  rw [State.abandonAll_holds]
  rfl

theorem State.resetPort_unheld (s : State) (p : Port) : (s.resetPort p).Unheld p := fun y m => by
  rw [s.resetPort_holds, List.mem_filter, bne_iff_ne] at m
  exact m.2

theorem State.resetPort_gathering (h : s.PoolLawful) (p : Port) : (s.resetPort p).pool.gathering.get p = [] := by
  have dropped : (s.dropRequests p).PoolLawful := h.writes (s.dropRequests_writes p)
  have all := dropped.abandonAll_gathering p .portReset
  rw [(s.resetPort_pool p).gathering]
  show ((s.dropRequests p).abandonAll p .portReset).pool.gathering.get p = []
  rw [all, PerPort.get_set_same]

theorem State.resetPort_buffer (s : State) (p : Port) (c : BufId) : ∃ n, (s.resetPort p).buffer c =
    { (if c ∈ s.pool.gathering.get p then { s.buffer c with state := .free } else s.buffer c) with waitCount := n } := by
  obtain ⟨n, same⟩ := State.releaseAll_count (s.viewsOfPort p) (s.unported p) c
  refine ⟨n, ?_⟩
  have plain : (s.resetPort p).buffer c = ((s.unported p).releaseAll (s.viewsOfPort p)).buffer c := rfl
  have abandoned : (s.unported p).buffer c = _ := (s.dropRequests p).abandonEach_buffer .portReset (s.pool.gathering.get p) c
  rw [plain, same, abandoned]
  rfl

theorem State.resetPort_events (s : State) (p : Port) : (s.resetPort p).events = s.abandonEvents .portReset (s.pool.gathering.get p) := by
  have plain : (s.resetPort p).events = ((s.unported p).releaseAll (s.viewsOfPort p)).events := rfl
  rw [plain, (State.releaseAll_writes _ _).events]
  exact State.abandonEach_events .portReset (s.pool.gathering.get p) (s.dropRequests p)

theorem State.PoolLawful.resetPort (h : s.PoolLawful) (p : Port) : (s.resetPort p).PoolLawful := by
  have dropped : (s.dropRequests p).PoolLawful := h.writes (s.dropRequests_writes p)
  have acts : Acts True False False (s.dropRequests p) (s.unported p) := State.unported_acts (fun _ => h) p
  have unported : (s.unported p).PoolLawful := acts.keeps (fun _ _ a k => k.act trivial a) dropped
  have writes : (s.dropRequests p).Writes [.pool, .events] (s.unported p) :=
    ((State.abandonAll_writes _ p .portReset).seq (State.dropHold_writes _ p)).mono
  exact unported.keeps (s.resetPort_pool p) (congrArg CommitEngine.current ((s.resetPort_after p).engine.trans writes.engine.symm))

/-- The outstanding transaction's discard indicator goes on where it is the port's (06 R118). -/
theorem State.resetPort_outstanding (s : State) (p : Port) : (s.resetPort p).mem.outstanding =
    s.mem.outstanding.map fun x => if x.requester = .plain p then { x with discard := true } else x := by
  have before : ((s.unported p).releaseAll (s.viewsOfPort p)).mem.outstanding = s.mem.outstanding :=
    ((((s.dropRequests_writes p).seq (State.abandonAll_writes _ p .portReset)).seq (State.dropHold_writes _ p)).seq
      (State.releaseAll_writes _ _)).outstanding
  have reset : (s.resetPort p).mem.outstanding = Option.map (fun t => if isPlainOf p t then { t with discard := true } else t)
      ((s.unported p).releaseAll (s.viewsOfPort p)).mem.outstanding := rfl
  rw [reset, before]
  unfold isPlainOf
  simp only [beq_iff_eq]

/-! ### What follows -/

/-- The state that the port reset ends in. -/
def State.afterReset (s : State) (p : Port) : State := (s.resetPort p).examineHolds.settle

theorem State.afterReset_spared (s : State) (p : Port) : (s.resetPort p).Spared p (s.afterReset p) := by
  have examined := State.examineHolds_spares (q := p) (s.resetPort p)
  have port := (examined.spared (s.resetPort_unheld p)).port
  have still : (s.resetPort p).examineHolds.canAdvance p = false :=
    State.canAdvance_empty (by rw [port, s.resetPort_port, if_pos rfl])
  have moved := (State.route_moves (s.resetPort p).examineHolds).spares still
  exact ((examined.trans moved).trans (.of_writes (State.completeLong_writes _))).spared (s.resetPort_unheld p)

theorem State.afterReset_outside (s : State) (p : Port) :
    (s.resetPort p).OutsideRouters (s.resetPort p).examineHolds.route ∧ (s.resetPort p).examineHolds.route.Writes [.regions, .link] (s.afterReset p) :=
  ⟨(State.examineHolds_outside _).trans (State.route_outside _), State.completeLong_writes _⟩

theorem State.afterReset_closed (h : s.PoolLawful) (p : Port) (b : BufId)
    (closed : ((s.resetPort p).buffer b).state = .closed ∨ ((s.resetPort p).buffer b).state = .committing) :
    ∃ n m, (s.afterReset p).buffer b = { (s.resetPort p).buffer b with waitCount := n, preTorn := m } := by
  have none : ∀ {l : List HeldWrite}, ∀ y ∈ l, ¬ (fun _ : RegionId => False) y.spot.region := fun _ _ => id
  have lawful : (s.resetPort p).examineHolds.PoolLawful := State.poolLawful_kept.portReset s p h
  have examined : (s.resetPort p).NoneNew (fun _ => False) (s.resetPort p).examineHolds := State.examineHolds_noneNew none
  have moved := (State.route_moves (s.resetPort p).examineHolds).noneNew (R := fun _ => False) lawful (fun _ => False.elim) none
  exact ((examined.trans moved).trans (.of_writes (State.completeLong_writes _))).closed b closed

/-- With no other port's write held, nothing follows but a long command's completion. -/
theorem State.AtRest.afterReset (rest : s.AtRest) (mine : ∀ h ∈ s.pool.holds, h.port = p) :
    s.afterReset p = (s.resetPort p).completeLong := by
  have none : (s.resetPort p).pool.holds = [] := by
    rw [s.resetPort_holds, List.filter_eq_nil_iff]
    intro y m
    rw [bne_iff_ne]
    exact not_not_intro (mine y m)
  have still : (s.resetPort p).movable = [] := State.movable_eq_nil.2 fun q => by
    by_cases e : q = p
    · exact State.canAdvance_empty (by rw [s.resetPort_port, if_pos e])
    · refine (State.canAdvance_congr ?_ (s.resetPort_others e)).trans (rest.still q)
      rw [s.resetPort_port, if_neg e]
  unfold State.afterReset State.settle
  rw [(s.resetPort p).examineHolds_none none, (s.resetPort p).route_rest still]

end

/-- Settles O5: the reset port holds no write and has no request, so that what follows, which serves the other ports, spares it. -/
theorem portResetDropsThePortsWork : Obligations.PortResetDropsThePortsWork := by
  refine ⟨fun p s lawful => ⟨s.afterReset p, rfl, ?_⟩, fun p s => ⟨_, rfl, rfl, fun line room => ?_⟩⟩
  · have spared := s.afterReset_spared p
    obtain ⟨outside, long⟩ := s.afterReset_outside p
    have reset := s.resetPort_writes p
    have after : (s.afterReset p).PoolLawful := State.poolLawful_kept.exec (c := .portReset p) rfl lawful
    have own : (s.afterReset p).port p = { s.port p with queue := [], service := .fresh, resetLine := true } := by
      rw [spared.port, s.resetPort_port, if_pos rfl]
    have ungathered : (s.afterReset p).pool.gathering.get p = [] := List.eq_nil_iff_forall_not_mem.2 fun b m => by
      obtain ⟨g, w⟩ := (after.gathering_iff p b).1 m
      have old := ((lawful.resetPort p).gathering_iff p b).2 (spared.updates b g w)
      rw [State.resetPort_gathering lawful p] at old
      cases old
    have events := s.resetPort_events p
    rw [← State.abandonEach_events] at events
    have posted := State.abandonEach_outside .portReset (s.pool.gathering.get p) s
    refine ⟨by rw [own], by rw [own], by rw [own], by rw [own], ungathered, spared.unheld, fun v => ?_, ?_, ?_, fun b closed => ?_, fun q ne => ?_,
      ?_, ?_, ?_, ?_, ?_, ?_, ?_, fun rest mine => ?_, fun k => ?_⟩
    · have view : (s.afterReset p).view p v = (s.resetPort p).view p v := by rw [State.view, spared.views]; rfl
      rw [view, s.resetPort_view, if_pos rfl]
    · refine spared.plain.trans ?_
      exact PerPort.get_set_same ..
    · rw [long.outstanding, outside.outstanding, s.resetPort_outstanding]
    · obtain ⟨n, reset⟩ := s.resetPort_buffer p b
      have out : b ∉ s.pool.gathering.get p := fun m => by
        rw [((lawful.gathering_iff p b).1 m).1] at closed
        obtain k | k := closed <;> cases k
      rw [if_neg out] at reset
      obtain ⟨i, j, kept⟩ := State.afterReset_closed lawful p b (by rw [reset]; exact closed)
      rw [kept, reset]
      exact ⟨rfl, rfl, rfl, rfl, rfl, rfl⟩
    · exact (oneResponsePerRequest (.portReset p) s _ q rfl).1
    · rw [long.engine, outside.engine, reset.engine]
    · rw [long.timebase, outside.timebase, reset.timebase]
    · rw [long.events, outside.watches, events, posted.watches]
    · rw [long.events, outside.queueMask, events, posted.queueMask]
    · rw [long.events, outside.attentionMask, events, posted.attentionMask]
    · rw [long.arbiter.1, outside.ring, reset.arbiter.1]
    · rw [long.arbiter.2.1, outside.tagCounter, reset.arbiter.2.1]
    · rw [rest.afterReset mine]
      have done := (s.resetPort p).completeLong_writes
      refine ⟨fun b g w => ?_, ?_⟩
      · obtain ⟨n, reset⟩ := s.resetPort_buffer p b
        rw [if_pos ((lawful.gathering_iff p b).2 ⟨g, w⟩)] at reset
        rw [State.buffer_congr done.pool, reset]
      · rw [done.events, s.resetPort_events]
    · rw [long.versions, outside.versions, reset.versions]
  · refine (State.canTake_iff _ p).2 ⟨line, ?_, ?_⟩
    · rw [State.setPort_port_same]
    · rw [State.setPort_port_same]
      exact room

end Sys2Proof.Machine

/-! SUPPORT. CLOSE_OLDEST and the held write (03 R55, R56): the early close, the piece held, and the held write that opens in the
same step or at the commit that frees a buffer of a full pool (04 R79). -/

namespace Sys2Proof.Machine

/-! ### The early close (03 R55) -/

section
variable {s : State} {p : Port} {b : BufId} {more : List BufId} {x : Spot} {ws : List WriteWord}

theorem State.earlyClose_none (none : s.pool.gathering.get p = []) : s.earlyClose p = s := by
  unfold State.earlyClose
  rw [none]

theorem State.earlyClose_oldest (oldest : s.pool.gathering.get p = b :: more) : s.earlyClose p = s.closeBuffer b := by
  unfold State.earlyClose
  rw [oldest]

theorem State.earlyClose_setPort (s : State) (p q : Port) (y : PortState) : (s.setPort p y).earlyClose q = (s.earlyClose q).setPort p y := by
  unfold State.earlyClose
  rw [show (s.setPort p y).pool.gathering = s.pool.gathering from rfl]
  cases s.pool.gathering.get q <;> rfl

theorem State.closeBuffer_inFlight (s : State) (b : BufId) (r : RegionId) (k : Nat) : (s.closeBuffer b).inFlight r k = s.inFlight r k := by
  rw [State.inFlight_eq, State.inFlight_eq, State.closeBuffer_captures, List.filter_map, List.length_map]
  congr 2
  funext c
  rw [Function.comp_apply]
  split <;> rfl

/-- The port's oldest GATHERING buffer, as the early close leaves it. -/
structure State.ClosesOldest (s : State) (p : Port) (b : BufId) (more : List BufId) (t : State) : Prop where
  closed : t.buffer b = { s.buffer b with state := .closed, waitCount := s.inFlight (s.buffer b).region (s.buffer b).record }
  others : ∀ c, c ≠ b → t.buffer c = s.buffer c
  gathering : t.pool.gathering = s.pool.gathering.set p more
  closeOrder : t.pool.closeOrder = s.pool.closeOrder ++ [b]
  lawful : t.PoolLawful

theorem State.PoolLawful.closesOldest (pool : s.PoolLawful) (oldest : s.pool.gathering.get p = b :: more) :
    s.ClosesOldest p b more (s.earlyClose p) := by
  obtain ⟨gathers, writer⟩ := (pool.gathering_iff p b).1 (by rw [oldest]; exact List.mem_cons_self)
  rw [State.earlyClose_oldest oldest]
  refine ⟨?_, fun c ne => State.closeBuffer_buffer_other _ _ _ ne, ?_, State.closeBuffer_closeOrder .., pool.closeBuffer gathers⟩
  · rw [State.closeBuffer_buffer, if_pos rfl, State.inFlight_eq]
  · rw [State.closeBuffer_gathering, writer, oldest, List.erase_cons_head]

end

/-! ### The piece held (03 R55, R56) -/

section
variable {s : State} {p : Port} {x : Spot} {ws : List WriteWord}

/-- The held write a piece becomes. -/
def State.holding (s : State) (p : Port) (x : Spot) (ws : List WriteWord) : State :=
  s.setPool { s.pool with holds := s.pool.holds ++ [⟨p, x, ws, s.timebase⟩] }

theorem State.holdPiece_eq (s : State) (p : Port) (x : Spot) (ws : List WriteWord) :
    s.holdPiece p x ws = (s.holding p x ws).awaitPiece p ws.length (some x) .held := rfl

/-- Held writes whose ports may not open stay (03 R56). -/
theorem State.examineEach_shut {l : List HeldWrite} (shut : ∀ h ∈ l, s.canOpen h.port = false) : l.foldl State.examineHold s = s := by
  induction l with
  | nil => rfl
  | cons h l ih =>
    rw [List.foldl_cons, State.examineHold_shut (shut h List.mem_cons_self), ih fun g m => shut g (List.mem_cons_of_mem _ m)]

theorem State.examineHolds_full (full : ∀ b, (s.buffer b).state ≠ .free) : s.examineHolds = s :=
  State.examineEach_shut fun _ _ => State.canOpen_eq_false (.inl full)

/-- The first held write whose port may open takes the one FREE buffer, and the others stay (03 R56). -/
theorem State.examineHolds_first {before after : List HeldWrite} {h : HeldWrite} (holds : s.pool.holds = before ++ h :: after)
    (shut : ∀ g ∈ before, s.canOpen g.port = false) (full : ∀ b, ((s.examineHold h).buffer b).state ≠ .free) :
    s.examineHolds = s.examineHold h := by
  unfold State.examineHolds
  rw [holds, List.foldl_append, List.foldl_cons, State.examineEach_shut shut,
    State.examineEach_shut fun _ _ => State.canOpen_eq_false (.inl full)]

/-- A piece held with both limits open takes a buffer in the same step, as if it had not been held (03 R55, R56). -/
theorem State.holdPiece_opens (none : s.pool.holds = []) (can : s.canOpen p = true) :
    (s.holdPiece p x ws).examineHolds = (s.openUpdate p x ws).finishPiece p ws.length .okay [] := by
  generalize hy : { (s.port p) with service := { (s.port p).service with piece := some ⟨ws.length, some x, .held⟩ } } = y
  have held : s.holdPiece p x ws = (s.holding p x ws).setPort p y := by
    rw [← hy]
    rfl
  have only : (s.holdPiece p x ws).pool.holds = [⟨p, x, ws, s.timebase⟩] := by
    rw [held]
    show s.pool.holds ++ [_] = _
    rw [none, List.nil_append]
  have can' : (s.holdPiece p x ws).canOpen p = true := can
  have port : (s.openUpdate p x ws).port p = s.port p := State.port_congr (s.openUpdate_writes p x ws).ports p
  have emptied : (s.holdPiece p x ws).setPool { (s.holdPiece p x ws).pool with holds := [] } = s.setPort p y := by
    rw [held, ← none]
    rfl
  unfold State.examineHolds
  rw [only, List.foldl_cons, List.foldl_nil]
  unfold State.examineHold
  rw [if_pos can', only, List.erase_cons_head]
  show (State.openUpdate _ p x ws).finishPiece p ws.length .okay [] = _
  rw [emptied, State.openUpdate_setPort]
  unfold State.finishPiece State.setService
  rw [State.setPort_setPort, State.setPort_port_same, port, ← hy]

/-- The state in which CLOSE_OLDEST has posted the limit met and closed the port's oldest update (03 R52, R55). -/
def State.madeRoom (s : State) (p : Port) (x : Spot) : State := (s.postExhausted p x).earlyClose p

theorem State.madeRoom_writes (s : State) (p : Port) (x : Spot) : s.Writes [.events, .pool, .captures] (s.madeRoom p x) :=
  (s.postExhausted_writes p x).seq (State.earlyClose_writes ..)

theorem State.madeRoom_events (s : State) (p : Port) (x : Spot) : (s.madeRoom p x).events = (s.postExhausted p x).events :=
  (State.earlyClose_writes ..).events

theorem State.madeRoom_holds (s : State) (p : Port) (x : Spot) : (s.madeRoom p x).pool.holds = s.pool.holds :=
  State.earlyClose_holds ..

theorem State.postExhausted_pool (s : State) (p : Port) (x : Spot) : (s.postExhausted p x).pool = s.pool :=
  (s.postExhausted_writes p x).pool

theorem State.madeRoom_none (none : s.pool.gathering.get p = []) : (s.madeRoom p x).pool = s.pool := by
  unfold State.madeRoom
  rw [State.earlyClose_none (by rw [State.postExhausted_pool]; exact none), State.postExhausted_pool]

theorem State.PoolLawful.madeRoom (pool : s.PoolLawful) {b : BufId} {more : List BufId} (oldest : s.pool.gathering.get p = b :: more) :
    s.ClosesOldest p b more (s.madeRoom p x) := by
  have w := s.postExhausted_writes p x
  have lawful : (s.postExhausted p x).PoolLawful := pool.writes w
  obtain ⟨closed, others, gathering, order, kept⟩ := lawful.closesOldest (by rw [w.pool]; exact oldest)
  have buffer := fun c => State.buffer_congr w.pool c
  have flight : ∀ r k, (s.postExhausted p x).inFlight r k = s.inFlight r k := fun _ _ => rfl
  simp only [buffer, flight, w.pool] at closed others gathering order
  exact ⟨closed, others, gathering, order, kept⟩

theorem State.madeRoom_busy (s : State) (p : Port) (x : Spot) (c : BufId) (n : (s.buffer c).state ≠ .free) :
    ((s.madeRoom p x).buffer c).state ≠ .free ∧ ((s.madeRoom p x).buffer c).region = (s.buffer c).region := by
  unfold State.madeRoom State.earlyClose
  split
  · exact ⟨n, rfl⟩
  · rw [State.closeBuffer_buffer]
    split
    · next e => exact ⟨nofun, e ▸ rfl⟩
    · exact ⟨n, rfl⟩

theorem State.AtRest.madeRoom (rest : s.AtRest) (p : Port) (x : Spot) : (s.madeRoom p x).AtRest :=
  have w := s.madeRoom_writes p x
  rest.carry w.ports w.views w.link w.regions (s.madeRoom_busy p x)

/-- A piece that may not open under CLOSE_OLDEST is held after the early close, and the held writes are examined (03 R55). -/
theorem State.ServesAtOnce.holdsPiece {a : Word} (writer : (s.definition x.region).writer = p) (some' : anyEnabled ws = true)
    {l : List WriteWord} (staged : setAside (s.definition x.region).versionWord x.offset l = ws)
    (gathering : s.gatheringOf x.region x.record = none) (policy : (s.definition x.region).policy = .closeOldest)
    (cannot : s.canOpen p = false) :
    (s.taken p (.write a l)).handPiece p (.write a l) 0 (Request.write a l).beats (some x) =
      (((s.madeRoom p x).taken p (.write a l)).holdPiece p x ws).examineHolds := by
  have port : (s.madeRoom p x).port p = s.port p := State.port_congr (s.madeRoom_writes p x).ports p
  have room : ((s.taken p (.write a l)).postExhausted p x).earlyClose p = (s.madeRoom p x).taken p (.write a l) := by
    unfold State.taken
    rw [port]
    exact State.earlyClose_setPort (s.postExhausted p x) p p _
  have policy' : ((s.taken p (.write a l)).definition x.region).policy = .closeOldest := policy
  rw [State.ServesAtOnce.stages writer, State.stagePiece_exhausted (s := s.taken p (.write a l)) staged some' gathering cannot, State.exhausted_eq, policy']
  exact congrArg (fun t : State => (t.holdPiece p x ws).examineHolds) room

end

/-- The FREE buffer an update opens in, as its first piece leaves it: staged, and closed with the close word (03 R48, R49). -/
structure State.OpensIn (s : State) (p : Port) (x : Spot) (ws : List WriteWord) (b : BufId) (t : State) : Prop where
  others : ∀ c, c ≠ b → t.buffer c = s.buffer c
  stays : s.closes x ws = false → t.buffer b = stageWords (s.opened p x) x.offset ws ∧
    t.pool.gathering = s.pool.gathering.set p (s.pool.gathering.get p ++ [b]) ∧ t.pool.closeOrder = s.pool.closeOrder
  closes : s.closes x ws = true → t.buffer b = { stageWords (s.opened p x) x.offset ws with
      state := .closed, waitCount := s.inFlight x.region x.record } ∧
    t.pool.gathering = s.pool.gathering ∧ t.pool.closeOrder = s.pool.closeOrder ++ [b]

theorem State.PoolLawful.opensIn {s : State} {p : Port} {x : Spot} {ws : List WriteWord} {b : BufId} (pool : s.PoolLawful)
    (free : (s.buffer b).state = .free) : s.OpensIn p x ws b ((s.openBuffer p x b).stageIn b x ws) := by
  have closes' : (s.openBuffer p x b).closes x ws = s.closes x ws := rfl
  have first : (s.openBuffer p x b).buffer b = s.opened p x := (State.openBuffer_buffer ..).trans (if_pos rfl)
  cases closes : s.closes x ws with
  | false =>
    rw [State.stageIn_open (closes'.trans closes), first]
    refine ⟨fun c ne => ?_, fun _ => ⟨State.setBuffer_buffer_same .., rfl, rfl⟩, fun k => (nomatch closes.symm.trans k)⟩
    rw [State.setBuffer_buffer, if_neg ne, State.openBuffer_buffer, if_neg ne]
  | true =>
    rw [State.openBuffer_close pool free closes]
    exact ⟨fun c ne => (cell_put ..).trans (if_neg ne), fun k => (nomatch closes.symm.trans k),
      fun _ => ⟨(cell_put ..).trans (if_pos rfl), rfl, rfl⟩⟩

section
variable {s : State} {p : Port} {x : Spot} {a : Word} {ws l : List WriteWord}

/-- The held write and the early close of a full pool (03 R55). -/
theorem State.ServesAtOnce.keepsHeld (serves : s.ServesAtOnce p (.write a ws)) (rest : s.AtRest) (within : s.Within (.write a ws) x)
    (writer : (s.definition x.region).writer = p) (staged : setAside (s.definition x.region).versionWord x.offset ws = l)
    (some' : anyEnabled l = true) (gathering : s.gatheringOf x.region x.record = none)
    (policy : (s.definition x.region).policy = .closeOldest) (full : ∀ b, (s.buffer b).state ≠ .free) :
    exec (.requestTaken p (.write a ws)) s = .next (((s.madeRoom p x).holding p x l).setPort p
      { s.port p with queue := [.write a ws], service := { Service.fresh with piece := some ⟨ws.length, some x, .held⟩ } }) := by
  have w := s.madeRoom_writes p x
  have length : l.length = ws.length := by rw [← staged, setAside_length]
  have hand := State.ServesAtOnce.holdsPiece (a := a) writer some' staged gathering policy (State.canOpen_eq_false (.inl full))
  have shut : ∀ b, ((((s.madeRoom p x).taken p (.write a ws)).holdPiece p x l).buffer b).state ≠ .free :=
    fun b => (s.madeRoom_busy p x b (full b)).1
  rw [State.examineHolds_full shut, State.holdPiece_eq, length] at hand
  have rest' : ((s.madeRoom p x).holding p x l).AtRest := (rest.madeRoom p x).carry rfl rfl rfl rfl fun b n => ⟨n, rfl⟩
  exact serves.waits (u := (s.madeRoom p x).holding p x l) (within.piece (Request.beats_pos serves.formed)) hand w.ports rest rest' nofun

/-- With four GATHERING buffers and no other held write, the piece opens in the same step (03 R55, R56). -/
theorem State.ServesAtOnce.opensAfterClose {b n : BufId} {more : List BufId} (serves : s.ServesAtOnce p (.write a ws)) (rest : s.AtRest)
    (pool : s.PoolLawful) (within : s.Within (.write a ws) x)
    (writer : (s.definition x.region).writer = p) (staged : setAside (s.definition x.region).versionWord x.offset ws = l)
    (some' : anyEnabled l = true) (gathering : s.gatheringOf x.region x.record = none)
    (policy : (s.definition x.region).policy = .closeOldest) (oldest : s.pool.gathering.get p = b :: more)
    (four : (s.pool.gathering.get p).length = 4) (free : s.freeBuffer = some n) (none : s.pool.holds = []) :
    (s.madeRoom p x).freeBuffer = some n ∧ exec (.requestTaken p (.write a ws)) s =
      .next ((((s.madeRoom p x).openBuffer p x n).stageIn n x l).answered p ⟨.okay, []⟩) := by
  have w := s.madeRoom_writes p x
  have closes := pool.madeRoom (x := x) oldest
  have length : l.length = ws.length := by rw [← staged, setAside_length]
  have hand := State.ServesAtOnce.holdsPiece (a := a) writer some' staged gathering policy (State.canOpen_eq_false (.inr four.ge))
  have three : more.length < 4 := by
    rw [oldest, List.length_cons] at four
    omega
  have open' := (State.freeBuffer_iff.1 free).1
  have apart : n ≠ b := fun e => by
    have gathers := ((pool.gathering_iff p b).1 (by rw [oldest]; exact List.mem_cons_self)).1
    rw [e, gathers] at open'
    cases open'
  have free' : (s.madeRoom p x).freeBuffer = some n := by
    refine State.freeBuffer_iff.2 ⟨by rw [closes.others n apart]; exact open', fun c lt => ?_⟩
    exact (s.madeRoom_busy p x c ((State.freeBuffer_iff.1 free).2 c lt)).1
  have can : ((s.madeRoom p x).taken p (.write a ws)).canOpen p = true := by
    refine (State.canOpen_iff _ p).2 ⟨⟨n, (State.freeBuffer_iff.1 free').1⟩, ?_⟩
    show ((s.madeRoom p x).pool.gathering.get p).length < 4
    rw [closes.gathering, PerPort.get_set_same]
    exact three
  have opened := State.openUpdate_eq (s := s.madeRoom p x) (p := p) (x := x) (ws := l) free'
  have wo := (s.madeRoom p x).openUpdate_writes p x l
  have taken : ((s.madeRoom p x).taken p (.write a ws)).openUpdate p x l = ((s.madeRoom p x).openUpdate p x l).taken p (.write a ws) := by
    have port : ((s.madeRoom p x).openUpdate p x l).port p = (s.madeRoom p x).port p := State.port_congr wo.ports p
    unfold State.taken
    rw [State.openUpdate_setPort, port]
  rw [State.holdPiece_opens (s := (s.madeRoom p x).taken p (.write a ws)) ((s.madeRoom_holds p x).trans none) can, taken, length] at hand
  refine ⟨free', ?_⟩
  rw [← opened]
  have rest' : ((s.madeRoom p x).openUpdate p x l).AtRest := by
    rw [opened]
    refine ((rest.madeRoom p x).openBuffer (State.freeBuffer_iff.1 free').1 p x).stageIn ?_ x l
    rw [State.openBuffer_buffer, if_pos rfl]
    nofun
  exact serves.answers (ws := []) (within.piece (Request.beats_pos serves.formed)) hand (wo.ports.trans w.ports) rest rest'

end

end Sys2Proof.Machine

/-! SUPPORT. The held write that takes the buffer a commit frees (03 R56; 04 R79), and CLOSE_OLDEST's obligation. -/

namespace Sys2Proof.Machine

/-! ### The held write that opens at a commit (03 R56; 04 R79) -/

section
variable {s u t : State} {p : Port} {r : Request} {h : HeldWrite} {before after : List HeldWrite}

/-- What at most three moves of one port come to is what the routers come to. -/
theorem State.Turns.route {n : Nat} (h : State.Turns p n s t) (le : n ≤ 3) (busy : r ∈ (s.port p).queue) : s.route = t := by
  have work := State.work_le busy
  exact h.run (by omega)

/-- A request with every word in a finished piece, alone in its queue, is answered, and the routers rest. -/
theorem State.route_responds (queue : (u.port p).queue = [r]) (piece : (u.port p).service.piece = none)
    (done : r.beats ≤ (u.port p).service.next) (others : ∀ q, q ≠ p → u.canAdvance q = false) : u.route = u.respond p r [] := by
  have last : State.Turns p 0 (u.advance p) (u.respond p r []) := by
    rw [State.advance_responds queue done]
    refine .still (State.movable_eq_nil.2 fun q => ?_)
    by_cases e : q = p
    · subst e
      exact State.canAdvance_empty (by rw [u.respond_port])
    · exact (State.canAdvance_congr (u.setPort_port_other _ e) rfl).trans (others q e)
  exact (State.Turns.move (State.movable_only (State.canAdvance_ready queue piece) others) last).route (by decide)
    (by rw [queue]; exact List.mem_cons_self)

/-- The state with these held writes alone. -/
def State.keptHolds (s : State) (l : List HeldWrite) : State := s.setPool { s.pool with holds := l }

theorem State.keptHolds_buffer (s : State) (l : List HeldWrite) (c : BufId) : (s.keptHolds l).buffer c = s.buffer c := rfl

theorem State.keptHolds_lists (s : State) (l : List HeldWrite) : (s.keptHolds l).pool.gathering = s.pool.gathering ∧
    (s.keptHolds l).pool.closeOrder = s.pool.closeOrder := ⟨rfl, rfl⟩

theorem State.PoolLawful.keptHolds (pool : s.PoolLawful) (l : List HeldWrite) : (s.keptHolds l).PoolLawful :=
  pool.congr (fun _ => rfl) (fun _ => rfl) rfl rfl rfl

theorem State.examineHold_takes {b : BufId} (can : s.canOpen h.port = true) (free : s.freeBuffer = some b) :
    s.examineHold h = (((s.keptHolds (s.pool.holds.erase h)).openBuffer h.port h.spot b).stageIn b h.spot h.words).finishPiece
      h.port h.words.length .okay [] := by
  have free' : (s.keptHolds (s.pool.holds.erase h)).freeBuffer = some b := free
  rw [← State.openUpdate_eq free']
  exact if_pos can

section
variable {job : CommitJob}

theorem State.freedCommit_state (s : State) (job : CommitJob) (c : BufId) :
    ((s.freedCommit job).buffer c).state = if c = job.buffer then .free else (s.buffer c).state := by
  rw [State.freedCommit_buffer, State.settleRecord_buffer]
  split
  · rfl
  · split <;> rfl

theorem State.freedCommit_gathering (s : State) (job : CommitJob) : (s.freedCommit job).pool.gathering = s.pool.gathering := by
  rw [State.freedCommit_pool, State.freeCommitted_gathering, (s.settledCommit_keepsUpdates job).gathering]

theorem State.freedCommit_closeOrder (s : State) (job : CommitJob) :
    (s.freedCommit job).pool.closeOrder = s.pool.closeOrder.erase job.buffer := by
  rw [State.freedCommit_pool, State.freeCommitted_closeOrder, (s.settledCommit_keepsUpdates job).closeOrder]

/-- A commit of a full pool frees the pool's one FREE buffer (04 R79). -/
theorem State.freedCommit_free (full : ∀ b, (s.buffer b).state ≠ .free) : (s.freedCommit job).freeBuffer = some job.buffer := by
  refine State.freeBuffer_iff.2 ⟨(s.freedCommit_state job _).trans (if_pos rfl), fun c lt => ?_⟩
  rw [s.freedCommit_state, if_neg (Fin.ne_of_lt lt)]
  exact full c

end

/-- The state in which a commit's freed buffer holds the update a held write opens in it. -/
def State.reopened (s : State) (job : CommitJob) (h : HeldWrite) (l : List HeldWrite) : State :=
  (((s.freedCommit job).keptHolds l).openBuffer h.port h.spot job.buffer).stageIn job.buffer h.spot h.words

variable {job : CommitJob}

theorem State.reopened_writes (s : State) (job : CommitJob) (h : HeldWrite) (l : List HeldWrite) :
    s.Writes [.versions, .pool, .events, .link, .engine, .captures] (s.reopened job h l) :=
  (((s.freedCommit_writes job).seq (State.setPool_writes ..)).seq (State.openBuffer_writes ..)).seq (State.stageIn_writes ..) |>.mono

/-- The buffer a commit freed, as the held write that opens in it leaves it. -/
structure State.OpensFreed (s : State) (h : HeldWrite) (b : BufId) (t : State) : Prop where
  stays : s.closes h.spot h.words = false → t.buffer b = stageWords (s.opened h.port h.spot) h.spot.offset h.words ∧
    t.pool.gathering = s.pool.gathering.set h.port (s.pool.gathering.get h.port ++ [b])
  closes : s.closes h.spot h.words = true → (∃ n, t.buffer b = { stageWords (s.opened h.port h.spot) h.spot.offset h.words with
      state := .closed, waitCount := n }) ∧
    t.pool.gathering = s.pool.gathering ∧ t.pool.closeOrder = s.pool.closeOrder.erase b ++ [b]

/-- The buffer the commit engine may take next holds what was staged in it. -/
theorem State.OpensFreed.taken {b : BufId} {y : Buffer} (o : s.OpensFreed h b t)
    (taken : y = t.buffer b ∨ ((t.buffer b).state = .closed ∧ y = { t.buffer b with state := .committing })) :
    let staged := stageWords (s.opened h.port h.spot) h.spot.offset h.words
    y.region = h.spot.region ∧ y.record = h.spot.record ∧ y.writer = h.port ∧ y.openingTime = s.timebase ∧ y.image = staged.image ∧
    y.mask = staged.mask ∧ y.preTorn = false := by
  obtain ⟨-, region, record, writer, opening, -, torn⟩ := stageWords_fields (s.opened h.port h.spot) h.spot.offset h.words
  have staged : ∃ st n, t.buffer b = { stageWords (s.opened h.port h.spot) h.spot.offset h.words with state := st, waitCount := n } := by
    cases closes : s.closes h.spot h.words with
    | false => exact ⟨_, _, (o.stays closes).1⟩
    | true =>
      obtain ⟨n, e⟩ := (o.closes closes).1
      exact ⟨_, n, e⟩
  obtain ⟨st, n, e⟩ := staged
  rw [e] at taken
  obtain rfl | ⟨-, rfl⟩ := taken
  · exact ⟨region, record, writer, opening, rfl, rfl, torn⟩
  · exact ⟨region, record, writer, opening, rfl, rfl, torn⟩

/-- Where a record lies and when a buffer opened are read from the region table and the reference. -/
theorem State.opened_congr (timebase : t.timebase = s.timebase) (p : Port) (x : Spot) : t.opened p x = s.opened p x := by
  unfold State.opened
  rw [timebase]

theorem State.closes_congr (regions : t.regions = s.regions) (x : Spot) (ws : List WriteWord) : t.closes x ws = s.closes x ws := by
  unfold State.closes
  rw [State.definition_congr regions]

theorem State.reopened_opens (pool : s.PoolLawful) (writing : s.engine = .writing job) (l : List HeldWrite) :
    s.OpensFreed h job.buffer (s.reopened job h l) := by
  have opens := ((pool.freedCommit writing).keptHolds l).opensIn (p := h.port) (x := h.spot) (ws := h.words)
    (by rw [State.keptHolds_buffer, s.freedCommit_state, if_pos rfl])
  have w := (s.freedCommit_writes job).seq (State.setPool_writes _ { (s.freedCommit job).pool with holds := l })
  obtain ⟨gathering, order⟩ := (s.freedCommit job).keptHolds_lists l
  rw [s.freedCommit_gathering] at gathering
  rw [s.freedCommit_closeOrder] at order
  have born : ((s.freedCommit job).keptHolds l).opened h.port h.spot = s.opened h.port h.spot := State.opened_congr w.timebase _ _
  have shuts : ((s.freedCommit job).keptHolds l).closes h.spot h.words = s.closes h.spot h.words := State.closes_congr w.regions _ _
  unfold State.reopened
  generalize (s.freedCommit job).keptHolds l = x at opens gathering order born shuts
  obtain ⟨-, stays, closes⟩ := opens
  rw [gathering, born] at stays
  rw [gathering, order, born] at closes
  refine ⟨fun k => ?_, fun k => ?_⟩
  · obtain ⟨buffer, lists, -⟩ := stays (shuts.trans k)
    exact ⟨buffer, lists⟩
  · obtain ⟨buffer, lists, order⟩ := closes (shuts.trans k)
    exact ⟨⟨_, buffer⟩, lists, order⟩

theorem State.OpensFreed.of_commitEnded {f : List Answer → List Answer} {b : BufId} (o : (s.commitEnded job f).OpensFreed h b t) :
    s.OpensFreed h b t := ⟨o.stays, o.closes⟩

theorem State.reopened_holds (s : State) (job : CommitJob) (h : HeldWrite) (l : List HeldWrite) : (s.reopened job h l).pool.holds = l :=
  State.stageIn_holds ..

theorem State.reopened_full (full : ∀ b, (s.buffer b).state ≠ .free) (l : List HeldWrite) (c : BufId) :
    ((s.reopened job h l).buffer c).state ≠ .free := by
  have used : ((((s.freedCommit job).keptHolds l).openBuffer h.port h.spot job.buffer).buffer c).state ≠ .free := by
    rw [State.openBuffer_buffer]
    split
    · nofun
    · next ne =>
      rw [State.keptHolds_buffer, s.freedCommit_state, if_neg ne]
      exact full c
  refine (State.stageIn_busy ?_ c used).1
  rw [State.openBuffer_buffer, if_pos rfl]
  nofun

/-- The examination after a commit of a full pool: the first held write whose port has room opens in the freed buffer. -/
theorem State.freedCommit_opens (full : ∀ b, (s.buffer b).state ≠ .free) (holds : s.pool.holds = before ++ h :: after)
    (once : h ∉ before) (shut : ∀ g ∈ before, 4 ≤ (s.pool.gathering.get g.port).length)
    (room : (s.pool.gathering.get h.port).length < 4) :
    (s.freedCommit job).examineHolds = (s.reopened job h (before ++ after)).finishPiece h.port h.words.length .okay [] := by
  have free := State.freedCommit_free (job := job) full
  have gathering := s.freedCommit_gathering job
  have holds' := (s.freedCommit_holds job).trans holds
  have can : (s.freedCommit job).canOpen h.port = true :=
    (State.canOpen_iff _ _).2 ⟨⟨_, (State.freeBuffer_iff.1 free).1⟩, by rw [gathering]; exact room⟩
  have takes := State.examineHold_takes can free
  rw [holds', List.erase_append_right _ once, List.erase_cons_head] at takes
  refine (State.examineHolds_first holds' (fun g m => State.canOpen_eq_false (.inr ?_)) fun c => ?_).trans takes
  · rw [gathering]
    exact shut g m
  · rw [takes]
    exact State.reopened_full full _ c

/-- What the commit engine's next buffer and the answer to the held write's request leave, routers at rest (02 R37; 04 R70). -/
theorem State.Ends.opensHeld {tr : Transaction} {f : List Answer → List Answer} {i : Instr} {k : Cause} (rest : s.AtRest)
    (ports : s.PortsLawful) (by' : s.EndsBy tr i k f) (ends : s.Ends .commit tr (f tr.answers)) (writing : s.engine = .writing job)
    (full : ∀ b, (s.buffer b).state ≠ .free) (holds : s.pool.holds = before ++ h :: after)
    (shut : ∀ g ∈ before, 4 ≤ (s.pool.gathering.get g.port).length) (room : (s.pool.gathering.get h.port).length < 4)
    (queue : (s.port h.port).queue = [r]) (whole : (s.port h.port).service.next + h.words.length = r.beats) :
    exec i s = .next ((((s.commitEnded job f).reopened { job with answers := f job.answers } h (before ++ after)).finishPiece
      h.port h.words.length .okay []).takeCommit.respond h.port r []).completeLong := by
  have once : h ∉ before := fun m => by
    have nodup := ports.holds_nodup
    rw [holds] at nodup
    exact (List.nodup_append.1 nodup).2.2 h m h List.mem_cons_self rfl
  have w := (s.commitEnded job f).reopened_writes { job with answers := f job.answers } h (before ++ after)
  rw [(ends.arrives by').2, State.ended_commit ends.requester ends.kept writing]
  show Host.Outcome.next ((s.commitEnded job f).completeCommit _).settle = _
  rw [State.completeCommit_eq, State.freedCommit_opens (s := s.commitEnded job f) full holds once shut room]
  generalize (s.commitEnded job f).reopened { job with answers := f job.answers } h (before ++ after) = o at *
  have ports' : o.ports = s.ports := w.ports
  have views : o.views = s.views := w.views
  have e := (o.finishPiece h.port h.words.length .okay []).takeCommit_writes
  have port := (State.port_congr e.ports h.port).trans (o.finishPiece_port_eq h.port h.words.length .okay [])
  rw [State.port_congr ports'] at port
  unfold State.settle
  rw [State.route_responds (p := h.port) (r := r) (by rw [port]; exact queue) (by rw [port]) (by rw [port]; exact whole.ge)]
  exact fun q ne => (State.canAdvance_congr (State.port_congr e.ports q) (congrArg (fun x : PerPort PortViews => x.get q) e.views)).trans
    (rest.finishPiece_others ports' views _ _ _ ne)

end

/-- Settles O16: CLOSE_OLDEST closes the port's oldest update and holds the piece, which opens at once where both limits then permit;
after a commit of a full pool the earliest held write with room takes the freed buffer. -/
theorem closeOldestClosesEarlyAndHolds : Obligations.CloseOldestClosesEarlyAndHolds := by
  refine ⟨fun p a ws x s rest pool serves within writer on gathering policy => ?_,
    fun s tr job f i k h before after r rest pool ports by' ends writing full holds shut room queue whole => ?_⟩
  · intro staged closesEarly exhausted
    have some' : anyEnabled staged = true := anyEnabled_setAside.2 on
    have posted : (s.madeRoom p x).events = exhausted (if ∀ b, (s.buffer b).state ≠ .free then .pool else .port) := by
      rw [s.madeRoom_events, State.postExhausted_eq, policy]
      rfl
    refine ⟨fun full => ?_, fun b more n oldest four free none => ?_⟩
    · refine ⟨_, serves.keepsHeld rest within writer rfl some' gathering policy full, ?_, ?_, State.setPort_port_same .., ?_, ?_⟩
      · rw [if_pos full] at posted
        exact posted
      · show (s.madeRoom p x).pool.holds ++ [⟨p, x, staged, (s.madeRoom p x).timebase⟩] = _
        rw [s.madeRoom_holds, (s.madeRoom_writes p x).timebase]
      · exact fun b more oldest =>
          have c := pool.madeRoom (x := x) oldest
          ⟨c.closed, c.others, c.gathering, c.closeOrder⟩
      · exact fun none =>
          have e := State.madeRoom_none (x := x) none
          ⟨(congrArg Pool.buffers e : _), (congrArg Pool.closeOrder e : _)⟩
    · intro closes
      obtain ⟨free', row⟩ := serves.opensAfterClose rest pool within writer rfl some' gathering policy oldest four free none
      have room := pool.madeRoom (x := x) oldest
      have w := s.madeRoom_writes p x
      have opens := room.lawful.opensIn (p := p) (x := x) (ws := staged) (State.freeBuffer_iff.1 free').1
      have wo := ((s.madeRoom p x).openBuffer_writes p x n).seq (State.stageIn_writes _ n x staged)
      have apart : b ≠ n := fun e => by
        have f := (State.freeBuffer_iff.1 free').1
        rw [← e, room.closed] at f
        cases f
      have noHolds : (((s.madeRoom p x).openBuffer p x n).stageIn n x staged).pool.holds = [] :=
        (State.stageIn_holds ..).trans ((s.madeRoom_holds p x).trans none)
      have port : (((s.madeRoom p x).openBuffer p x n).stageIn n x staged).port p = s.port p := State.port_congr (wo.ports.trans w.ports) p
      have shuts : (s.madeRoom p x).closes x staged = true ↔ closes := by
        unfold State.closes
        rw [State.definition_congr w.regions]
        exact State.closes_setAside
      have flight : (s.madeRoom p x).inFlight x.region x.record = s.inFlight x.region x.record := by
        unfold State.madeRoom
        rw [State.earlyClose_oldest (by rw [State.postExhausted_pool]; exact oldest), State.closeBuffer_inFlight]
        rfl
      have born : (s.madeRoom p x).opened p x = s.opened p x := by
        unfold State.opened
        rw [w.timebase]
      have one : ¬ ∀ b, (s.buffer b).state ≠ .free := fun full => full n (State.freeBuffer_iff.1 free).1
      rw [if_neg one] at posted
      have stays := fun k : ¬ closes => opens.stays (Bool.eq_false_iff.2 fun c => k (shuts.1 c))
      have shut := fun k => opens.closes (shuts.2 k)
      rw [room.gathering, room.closeOrder, PerPort.get_set_same, PerPort.set_set, born] at stays
      rw [room.gathering, room.closeOrder, List.append_assoc, born, flight] at shut
      refine ⟨_, row, wo.events.trans posted, noHolds, ?_, ?_, (opens.others b apart).trans room.closed,
        fun c nb nn => (opens.others c nn).trans (room.others c nb), stays, shut⟩
      · rw [State.answered_port, port]
      · rw [State.answered_port, port, serves.empty]
  · intro staged
    have row := ends.opensHeld rest ports by' writing full holds shut room queue whole
    have lawful : (s.commitEnded job f).PoolLawful :=
      pool.congr (fun _ => rfl) (fun _ => rfl) rfl rfl (by rw [writing]; rfl)
    have opens := (State.reopened_opens (h := h) lawful (job := { job with answers := f job.answers }) rfl (before ++ after)).of_commitEnded
    have w := (s.commitEnded job f).reopened_writes { job with answers := f job.answers } h (before ++ after)
    have held := (s.commitEnded job f).reopened_holds { job with answers := f job.answers } h (before ++ after)
    generalize (s.commitEnded job f).reopened { job with answers := f job.answers } h (before ++ after) = o at row opens w held
    have e := (o.finishPiece h.port h.words.length .okay []).takeCommit_writes
    obtain ⟨leaves, order, -⟩ := (o.finishPiece h.port h.words.length .okay []).takeCommit_leaves job.buffer
    have lists := (o.finishPiece h.port h.words.length .okay []).takeCommit_gathering
    have kept := (o.finishPiece h.port h.words.length .okay []).takeCommit_holds
    have port := (State.port_congr e.ports h.port).trans (o.finishPiece_port_eq h.port h.words.length .okay [])
    rw [State.port_congr (show o.ports = s.ports from w.ports)] at port
    generalize (o.finishPiece h.port h.words.length .okay []).takeCommit = v at *
    have out := (v.respond h.port r []).completeLong_writes
    have pool' : (v.respond h.port r []).completeLong.pool = v.pool := out.pool
    have buffer : (v.respond h.port r []).completeLong.buffer job.buffer = v.buffer job.buffer := State.buffer_congr pool' _
    have port' : (v.respond h.port r []).completeLong.port h.port = _ :=
      (State.port_congr out.ports h.port).trans (v.respond_port h.port r [])
    refine ⟨_, row, ?_⟩
    rw [pool', buffer, port', port, lists, order, kept]
    have finished : (o.finishPiece h.port h.words.length .okay []).buffer job.buffer = o.buffer job.buffer := rfl
    rw [finished] at leaves
    obtain ⟨region, record, writer, opening, image, mask, torn⟩ := opens.taken leaves
    refine ⟨held, region, record, writer, opening, image, mask, torn, fun stays => ?_, fun closes => ?_, ?_⟩
    · obtain ⟨is, gathering⟩ := opens.stays stays
      have gathers : (o.buffer job.buffer).state = .gathering := by
        rw [is, stageWords_state]
        rfl
      refine ⟨?_, gathering⟩
      obtain same | ⟨closed, -⟩ := leaves
      · rw [same, gathers]
      · exact nomatch gathers.symm.trans closed
    · obtain ⟨⟨n, is⟩, gathering, order⟩ := opens.closes closes
      refine ⟨?_, gathering, order⟩
      obtain same | ⟨-, same⟩ := leaves
      · exact .inl (by rw [same, is])
      · exact .inr (by rw [same])
    · simp only [responseOf, List.append_nil]

end Sys2Proof.Machine

/-! SUPPORT. RETIRE's work (01 R10; 03 R58, R65; 05 R106): the region's views, updates and held writes before the others are examined. -/

namespace Sys2Proof.Machine

section
variable {s t : State} {p q : Port} {r : RegionId} {m : DrainMode}

/-! ### The answer to RETIRE -/

/-- How many updates RETIRE abandons. -/
def State.abandonCount (s : State) (r : RegionId) : DrainMode → Nat
  | .abandon => (s.gatheringIn r).length
  | .close => 0

theorem State.retire_reply {b mode : Byte} (region : b.toNat = r.val) (active : (s.region r).state = .active) (code : modeOfCode mode = some m) :
    s.carryOut (.retire b mode) = ((s.drained r m).examineHolds,
      .long (.retire r (s.abandonCount r m) 0 (s.viewsWhere fun _ x => x.region = r).length)) := by
  show s.doRetire b mode = _
  unfold State.doRetire
  rw [regionOfByte_eq region]
  dsimp only
  rw [if_pos active, code]
  cases m <;> rfl

theorem State.retire_badMode {b mode : Byte} (region : b.toNat = r.val) (active : (s.region r).state = .active)
    (code : modeOfCode mode = none) : s.carryOut (.retire b mode) = (s, .fail .badParam) := by
  show s.doRetire b mode = _
  unfold State.doRetire
  rw [regionOfByte_eq region]
  dsimp only
  rw [if_pos active, code]

theorem modeOfCode_eq_none {b : Byte} (h : 1 < b.toNat) : modeOfCode b = none := by
  unfold modeOfCode
  rw [if_neg fun e => by rw [e] at h; exact absurd h (by decide), if_neg fun e => by rw [e] at h; exact absurd h (by decide)]

theorem modeOfCode_eq_some {b : Byte} (h : b.toNat ≤ 1) :
    ∃ m, modeOfCode b = some m ∧ (b = 0 ↔ m = .abandon) ∧ (b = 1 ↔ m = .close) := by
  have cases' : b = 0 ∨ b = 1 := by bv_omega
  obtain rfl | rfl := cases'
  · exact ⟨.abandon, rfl, by decide, by decide⟩
  · exact ⟨.close, rfl, by decide, by decide⟩

/-! ### What RETIRE writes -/

theorem State.refuseEach_writes (x : RefusedCause) (l : List HeldWrite) (s : State) :
    s.Writes [.pool, .events, .ports] (l.foldl (State.refuseHold · x ·) s) := .foldl (fun s h => s.refuseHold_writes x h) l s

theorem State.unviewed_writes (s : State) (r : RegionId) :
    (s.setRegionState r .draining).Writes [.views, .captures, .pool, .capture, .ports] (s.unviewed r) :=
  ((State.releaseAll_writes ..).seq (State.giveBackAwaiting_writes ..)).mono

/-! ### The ports (02 R36) -/

theorem State.awaitsViewIn_congr (h : t.port p = s.port p) (r : RegionId) : t.awaitsViewIn r p = s.awaitsViewIn r p := by
  unfold State.awaitsViewIn
  rw [h]

theorem State.giveBackAwaiting_port (s : State) (r : RegionId) (q : Port) (still : s.awaitsViewIn r q = false) :
    (s.giveBackAwaiting r).port q = s.port q := by
  unfold State.giveBackAwaiting
  generalize allPorts = l
  induction l generalizing s with
  | nil => rfl
  | cons p l ih =>
    have first : (if s.awaitsViewIn r p then s.giveBack p else s).port q = s.port q := by
      split
      · next awaits =>
        rw [State.giveBack_port, if_neg fun e => by rw [← e, still] at awaits; cases awaits]
      · rfl
    exact (ih _ ((State.awaitsViewIn_congr first r).trans still)).trans first

/-! ### The updates (03 R65) -/

theorem State.abandonEvents_congr (timebase : t.timebase = s.timebase) (versions : t.versions = s.versions) (events : t.events = s.events)
    (definition : ∀ r, t.definition r = s.definition r) (k : s.KeepsUpdates t) (x : AbandonCause) (l : List BufId) :
    t.abandonEvents x l = s.abandonEvents x l := by
  have version : ∀ r n, t.version r n = s.version r n := fun r n => by
    unfold State.version State.entry
    rw [versions, definition]
  unfold State.abandonEvents
  simp only [timebase, version, events, k.region, k.record, k.writer]

/-- The events RETIRE posts for the updates. -/
def State.retireEvents (s : State) (r : RegionId) : DrainMode → EventUnit
  | .abandon => s.abandonEvents .retire (s.gatheringIn r)
  | .close => s.events

theorem State.closeEach_writes (l : List BufId) (s : State) : s.Writes [.pool, .captures] (l.foldl State.closeBuffer s) :=
  .foldl (fun s b => s.closeBuffer_writes b) l s

theorem State.undone_events (s : State) (r : RegionId) (m : DrainMode) : (s.undone r m).events = s.retireEvents r m := by
  have w := s.unviewed_writes r
  cases m with
  | abandon =>
    refine (State.abandonEach_events ..).trans ?_
    exact State.abandonEvents_congr (s := s) w.timebase w.versions w.events
      (fun q => (State.definition_congr w.regions q).trans (State.setRegionState_definition ..)) (s.unviewed_keepsUpdates r) _ _
  | close => exact (State.closeEach_writes ..).events.trans w.events

theorem State.closeEach_pool (l : List BufId) (s : State) : (l.foldl State.closeBuffer s).pool.closeOrder = s.pool.closeOrder ++ l ∧
    (l.foldl State.closeBuffer s).pool.holds = s.pool.holds := by
  induction l generalizing s with
  | nil => exact ⟨(List.append_nil _).symm, rfl⟩
  | cons b l ih =>
    obtain ⟨order, holds⟩ := ih (s.closeBuffer b)
    rw [List.foldl_cons, order, holds]
    exact ⟨by rw [State.closeBuffer_closeOrder, List.append_assoc]; rfl, rfl⟩

theorem State.closeEach_buffer (l : List BufId) (s : State) (c : BufId) :
    (c ∈ l ∨ (s.buffer c).state = .closed → ((l.foldl State.closeBuffer s).buffer c).state = .closed) ∧
    ∃ x n, (l.foldl State.closeBuffer s).buffer c = { s.buffer c with state := x, waitCount := n } := by
  induction l generalizing s with
  | nil => exact ⟨fun h => h.resolve_left List.not_mem_nil, _, _, rfl⟩
  | cons b l ih =>
    obtain ⟨closed, x, n, e⟩ := ih (s.closeBuffer b)
    rw [List.foldl_cons]
    by_cases here : c = b
    · have first : ∃ n, (s.closeBuffer b).buffer c = { s.buffer c with state := .closed, waitCount := n } :=
        ⟨_, by rw [State.closeBuffer_buffer, if_pos here, here]⟩
      obtain ⟨k, first⟩ := first
      exact ⟨fun _ => closed (.inr (by rw [first])), x, n, e.trans (by rw [first])⟩
    · have first : (s.closeBuffer b).buffer c = s.buffer c := s.closeBuffer_others b c here
      rw [first] at closed e
      refine ⟨fun h => closed (h.imp_left fun m => (List.mem_cons.1 m).resolve_left here), x, n, e⟩

/-- RETIRE's mode on the region's updates: abandoned they are FREE, closed they keep their bytes (03 R65). -/
theorem State.undone_buffer (s : State) (r : RegionId) {c : BufId} (mem : c ∈ s.gatheringIn r) :
    ((s.undone r .abandon).buffer c).state = .free ∧ ((s.undone r .close).buffer c).state = .closed ∧
    ((s.undone r .close).buffer c).image = (s.buffer c).image ∧ ((s.undone r .close).buffer c).mask = (s.buffer c).mask := by
  obtain ⟨n, torn, same⟩ := (s.unviewed_keepsUpdates r).buffer c
  obtain ⟨closed, x, k, e⟩ := State.closeEach_buffer (s.gatheringIn r) (s.unviewed r) c
  have e' : (s.undone r .close).buffer c = _ := e
  have closed' : ((s.undone r .close).buffer c).state = .closed := closed (.inl mem)
  have abandoned : (s.undone r .abandon).buffer c = _ := State.abandonEach_buffer .retire (s.gatheringIn r) (s.unviewed r) c
  refine ⟨by rw [abandoned, if_pos mem], closed', ?_, ?_⟩
  · rw [e', same]
  · rw [e', same]

theorem State.undone_closeOrder (s : State) (r : RegionId) : (s.undone r .abandon).pool.closeOrder = s.pool.closeOrder ∧
    (s.undone r .close).pool.closeOrder = s.pool.closeOrder ++ s.gatheringIn r := by
  have kept := (s.unviewed_keepsUpdates r).closeOrder
  exact ⟨(State.abandonEach_closeOrder ..).1.trans kept, (State.closeEach_pool ..).1.trans (by rw [kept])⟩

theorem State.undone_holds (s : State) (r : RegionId) (m : DrainMode) : (s.undone r m).pool.holds = s.pool.holds := by
  have kept := (s.unviewed_keepsUpdates r).holds
  cases m with
  | abandon => exact (State.abandonEach_closeOrder ..).2.trans kept
  | close => exact (State.closeEach_pool ..).2.trans kept

/-- The region's updates are those on its writer's gathering list (03 R45). -/
theorem State.PoolLawful.mem_gatheringIn (h : s.PoolLawful) (owned : s.UpdatesOwned) {c : BufId} :
    c ∈ s.gatheringIn r ↔ (s.buffer c).state = .gathering ∧ (s.buffer c).region = r := by
  unfold State.gatheringIn
  rw [List.mem_filter, h.gathering_iff, decide_eq_true_eq]
  refine ⟨fun ⟨⟨g, _⟩, e⟩ => ⟨g, e⟩, fun ⟨g, e⟩ => ⟨⟨g, ?_⟩, e⟩⟩
  rw [← (owned.buffers c g).2, e]

theorem State.PoolLawful.gatheringIn_length (h : s.PoolLawful) (owned : s.UpdatesOwned) (r : RegionId) : (s.gatheringIn r).length =
    (allBuffers.filter fun c => (s.buffer c).state = .gathering ∧ (s.buffer c).region = r).length := by
  refine List.Perm.length_eq ((List.perm_ext_iff_of_nodup (h.gatheringIn r).1 ((by decide : allBuffers.Nodup).filter _)).2 fun c => ?_)
  rw [h.mem_gatheringIn owned, List.mem_filter, and_iff_right (mem_allBuffers c), decide_eq_true_eq]

/-! ### The held writes (03 R58) -/

theorem State.refuseEach_pool (x : RefusedCause) (l : List HeldWrite) (s : State) :
    (l.foldl (State.refuseHold · x ·) s).pool = { s.pool with holds := s.pool.holds.diff l } := by
  induction l generalizing s with
  | nil => rfl
  | cons h l ih =>
    rw [List.foldl_cons, ih, List.diff_cons]
    rfl

/-- RETIRE leaves no held write of its region. -/
theorem State.drained_holds (s : State) (r : RegionId) (m : DrainMode) : ∀ h ∈ (s.drained r m).pool.holds, h.spot.region ≠ r := by
  have pool : (s.drained r m).pool = _ := State.refuseEach_pool .retired ((s.undone r m).holdsIn r) (s.undone r m)
  intro h mem e
  rw [pool] at mem
  have count := List.count_pos_iff.2 mem
  rw [List.count_diff, State.holdsIn, List.count_filter (by simpa using e)] at count
  omega

theorem State.drained_buffer (s : State) (r : RegionId) (m : DrainMode) (c : BufId) : (s.drained r m).buffer c = (s.undone r m).buffer c := by
  have pool : (s.drained r m).pool = _ := State.refuseEach_pool .retired ((s.undone r m).holdsIn r) (s.undone r m)
  unfold State.buffer
  rw [pool]

theorem State.drained_after (s : State) (r : RegionId) (m : DrainMode) : (s.undone r m).Writes [.pool, .events, .ports] (s.drained r m) :=
  State.refuseEach_writes ..

end

end Sys2Proof.Machine

/-! SUPPORT. RETIRE's step as a whole: its work, the held writes examined, the routers, and the region DEFINED where it is idle (01 R10). -/

namespace Sys2Proof.Machine

section
variable {s t u : State} {p q : Port} {r : RegionId} {m : DrainMode}

/-! ### The end of the step -/

/-- RETIRE as the step leaves it: executing while the region has a buffer, else done with the region DEFINED (01 R10). -/
theorem State.settle_retire {a c v : Nat} (h : u.link.state = .executing (.retire r a c v)) :
    (u.settle.regionIdle r = false → u.settle = u.route) ∧
    (u.settle.regionIdle r = true → u.settle = (u.route.setRegionState r .defined).formResult .done [byteOf a, byteOf c, byteOf v]) := by
  have pool : u.settle.pool = u.route.pool := u.route.completeLong_writes.pool
  have same : u.settle.regionIdle r = u.route.regionIdle r := by
    unfold State.regionIdle State.buffer
    rw [pool]
  rw [← congrArg Link.state u.route_link.1] at h
  rw [same]
  refine ⟨fun busy => ?_, fun idle => State.completeLong_retire h idle⟩
  show u.route.completeLong = _
  unfold State.completeLong
  rw [h]
  exact if_neg (Bool.eq_false_iff.1 busy)

theorem State.settle_retire_region {a c v : Nat} (h : u.link.state = .executing (.retire r a c v)) :
    (u.settle.regionIdle r = false → u.settle.region r = u.region r ∧ u.settle.link.state = .executing (.retire r a c v)) ∧
    (u.settle.regionIdle r = true → (u.settle.region r).state = .defined ∧
      u.settle.link.state = .result (resultBytes .done [byteOf a, byteOf c, byteOf v]) 0) ∧
    u.settle.definition r = u.definition r ∧ ∀ q, q ≠ r → u.settle.region q = u.region q := by
  obtain ⟨link, regions⟩ := u.route_link
  have region : ∀ q, u.route.region q = u.region q := fun q => congrArg (fun x => cell x q) regions
  have definition : ∀ q, u.route.definition q = u.definition q := State.definition_congr regions
  obtain ⟨busy, idle⟩ := State.settle_retire h
  cases e : u.settle.regionIdle r with
  | false =>
    rw [busy e]
    exact ⟨fun _ => ⟨region r, (congrArg Link.state link).trans h⟩, nofun, definition r, fun q _ => region q⟩
  | true =>
    rw [idle e]
    refine ⟨nofun, fun _ => ⟨?_, rfl⟩, ?_, fun q ne => ?_⟩
    · exact (State.setRegionState_state u.route r r .defined).trans (if_pos rfl)
    · exact (u.route.setRegionState_definition r r .defined).trans (definition r)
    · refine Eq.trans ?_ (region q)
      exact (u.route.setRegion_region r q _).trans (if_neg ne)

/-! ### The state the routers start from -/

/-- RETIRE taken in a mode: its work is done and the held writes are examined. -/
structure State.Retires (s : State) (r : RegionId) (m : DrainMode) (u : State) : Prop where
  taken : (s.drained r m).examineHolds.Writes [.link] u
  link : u.link.state = .executing (.retire r (s.abandonCount r m) 0 (s.viewsWhere fun _ x => x.region = r).length)

theorem State.drained_all (s : State) (r : RegionId) (m : DrainMode) :
    (s.setRegionState r .draining).Writes [.views, .captures, .pool, .capture, .ports, .events] (s.drained r m) := s.drained_writes r m

namespace State.Retires

theorem writes (h : s.Retires r m u) :
    (s.setRegionState r .draining).Writes [.views, .captures, .pool, .capture, .ports, .events, .link] u :=
  (((s.drained_all r m).seq (State.examineHolds_writes _)).seq h.taken).mono

theorem region (h : s.Retires r m u) (q : RegionId) : u.region q = (s.setRegionState r .draining).region q :=
  congrArg (fun x => cell x q) h.writes.regions

theorem draining (h : s.Retires r m u) : (u.region r).state = .draining := by
  rw [h.region, State.setRegionState_state, if_pos rfl]

theorem inactive (h : s.Retires r m u) : (u.region r).state ≠ .active := by
  rw [h.draining]
  nofun

theorem poolLawful (h : s.Retires r m u) (pool : s.PoolLawful) : u.PoolLawful := by
  have acts := State.retireTaken_acts (E := True) (F := False) (G := False) ⟨fun _ => pool, nofun⟩ r m
  rw [State.retireTaken_eq] at acts
  exact ((acts.keeps (fun _ _ a h => h.act trivial a) (pool.writes (s.setRegions_writes _)) :
    (s.drained r m).examineHolds.PoolLawful)).writes h.taken

theorem noneNew (h : s.Retires r m u) : (s.drained r m).NoneNew (· = r) u :=
  (State.examineHolds_noneNew (s.drained_holds r m)).trans (.of_writes h.taken)

theorem unheld (h : s.Retires r m u) : ∀ y ∈ u.pool.holds, y.spot.region ≠ r := h.noneNew.no_holds (s.drained_holds r m)

theorem noView (h : s.Retires r m u) : u.NoViewOf r := by
  intro p v busy region
  have view := s.retireTaken_view r m p v
  rw [State.retireTaken_eq] at view
  have same : u.view p v = _ := (congrArg (fun x : PerPort PortViews => cell (x.get p).views v) h.taken.views).trans view
  rw [same] at busy region
  by_cases mine : (s.view p v).region = r
  · rw [if_pos mine] at busy
    exact busy rfl
  · rw [if_neg mine] at region
    exact mine region

/-! ### The state the step ends in -/

/-- The routers and the completion open no update, no held write and no view of the region. -/
theorem settled (h : s.Retires r m u) (pool : s.PoolLawful) : (s.drained r m).NoneNew (· = r) u.settle ∧ u.settle.NoViewOf r := by
  have inactive : ∀ q, q = r → (u.region q).state ≠ .active := fun q e => e ▸ h.inactive
  have final := u.route.completeLong_writes
  refine ⟨(h.noneNew.trans (u.route_moves.noneNew (h.poolLawful pool) inactive h.unheld)).trans (.of_writes final), fun p v => ?_⟩
  have routed : u.route.NoViewOf r := by
    refine (u.route_moves.keeps (P := fun v => (v.region r).state ≠ .active ∧ v.NoViewOf r) (fun _ _ k => k)
      (fun v q can ⟨k, none'⟩ => ?_) ⟨h.inactive, h.noView⟩).2
    have acts : Acts False False True v (v.advance q) := State.advance_acts ⟨nofun, nofun⟩ can
    exact ⟨by unfold State.region; rw [acts.writes.regions]; exact k, acts.noViewOf k none'⟩
  have same : u.settle.view p v = u.route.view p v := congrArg (fun x : PerPort PortViews => cell (x.get p).views v) final.views
  rw [same]
  exact routed p v

theorem no_gathering (h : s.Retires r m u) (pool : s.PoolLawful) (owned : s.UpdatesOwned) (c : BufId)
    (g : (u.settle.buffer c).state = .gathering) : (u.settle.buffer c).region ≠ r := by
  intro e
  obtain ⟨none', -⟩ := h.settled pool
  obtain ⟨-, region⟩ := none'.busy c (by rw [g]; nofun) e
  have was := none'.gathering c g e
  rw [s.drained_buffer] at was region
  exact s.undone_gathering pool owned r m c was (region.trans e)

/-- The updates RETIRE closed stay closed, with their bytes (03 R65). -/
theorem closed (h : s.Retires r .close u) (pool : s.PoolLawful) {c : BufId} (mem : c ∈ s.gatheringIn r) :
    (u.settle.buffer c).state = .closed ∧ (u.settle.buffer c).image = (s.buffer c).image ∧ (u.settle.buffer c).mask = (s.buffer c).mask := by
  obtain ⟨-, closed, image, mask⟩ := s.undone_buffer r mem
  obtain ⟨n, k, e⟩ := (h.settled pool).1.closed c (by rw [s.drained_buffer]; exact .inl closed)
  rw [e, s.drained_buffer]
  exact ⟨closed, image, mask⟩

theorem versions (h : s.Retires r m u) (k : Fin 4096) : (cell u.settle.versions k).version = (cell s.versions k).version := by
  have final := u.route.completeLong_writes
  have same : u.settle.versions = u.route.versions := final.versions
  rw [same, u.route_moves.outside.versions, h.writes.versions]
  rfl

end State.Retires

end

end Sys2Proof.Machine

/-! SUPPORT. RETIRE's step where no piece needs a view and no other write is held: the work's events, and the region's held write
refused (03 R58, R65). -/

namespace Sys2Proof.Machine

section
variable {s t u : State} {p q : Port} {r : RegionId} {m : DrainMode} {h : HeldWrite} {w : Request}

/-! ### No other held write (03 R58) -/

theorem State.drained_unheld (m : DrainMode) (none : s.pool.holds = []) : s.drained r m = s.undone r m := by
  unfold State.drained State.holdsIn
  rw [s.undone_holds, none]
  rfl

theorem State.drained_held (m : DrainMode) (only : s.pool.holds = [h]) (region : h.spot.region = r) :
    s.drained r m = (s.undone r m).refuseHold .retired h := by
  unfold State.drained State.holdsIn
  rw [s.undone_holds, only, List.filter_cons_of_pos (by simpa using region)]
  rfl

/-- With no piece that needs a view, the release of the region's views leaves the ports (02 R36). -/
theorem State.unviewed_ports (need : s.NoPieceNeedsAView) (r : RegionId) : (s.unviewed r).ports = s.ports := by
  have released : ((s.setRegionState r .draining).releaseAll (s.viewsWhere fun _ x => x.region = r)).ports = s.ports :=
    State.releaseAll_ports need rfl
  refine State.ports_ext fun q => ?_
  have port := State.port_congr released q
  refine (State.giveBackAwaiting_port _ r q ?_).trans port
  rw [State.awaitsViewIn_congr port]
  unfold State.awaitsViewIn
  split
  · rfl
  · next x piece => rw [beq_eq_false_iff_ne.2 (need q x piece).1]; rfl

namespace State.Retires

theorem pool_unheld (h : s.Retires r m u) (none : s.pool.holds = []) : (s.undone r m).Writes [.link] u := by
  have taken := h.taken
  rw [State.drained_unheld m none, State.examineHolds_none _ ((s.undone_holds r m).trans none)] at taken
  exact taken

theorem pool_held {y : HeldWrite} (h : s.Retires r m u) (only : s.pool.holds = [y]) (region : y.spot.region = r) :
    ((s.undone r m).refuseHold .retired y).Writes [.link] u := by
  have taken := h.taken
  have none : ((s.undone r m).refuseHold .retired y).pool.holds = [] := by
    rw [State.refuseHold_holds, s.undone_holds, only, List.erase_cons_head]
  rw [State.drained_held m only region, State.examineHolds_none _ none] at taken
  exact taken

/-- With no held write and no piece that needs a view, the step is RETIRE's work and its end. -/
theorem settle_unneeded (h : s.Retires r m u) (rest : s.AtRest) (none : s.pool.holds = []) (need : s.NoPieceNeedsAView) :
    u.settle.events = s.retireEvents r m ∧ u.settle.ports = s.ports ∧ u.settle.pool = (s.undone r m).pool := by
  have taken := h.pool_unheld none
  have ports : u.ports = s.ports := taken.ports.trans ((s.undone_writes r m).ports.trans (State.unviewed_ports need r))
  have still : u.settle = u.completeLong := by
    unfold State.settle
    rw [u.route_rest (rest.unneeded need ports)]
  have final := u.completeLong_writes
  rw [still, final.events, final.ports, final.pool]
  exact ⟨taken.events.trans (s.undone_events r m), ports, taken.pool⟩

/-- The region's held write ends REFUSED, and its request is answered (02 R37; 03 R58). -/
theorem settle_refused {y : HeldWrite} (h : s.Retires r m u) (rest : s.AtRest) (only : s.pool.holds = [y]) (region : y.spot.region = r)
    (need : s.NoPieceNeedsAView) (queue : (s.port y.port).queue = [w])
    (whole : (s.port y.port).service.next + y.words.length = w.beats) :
    u.settle.pool.holds = [] ∧
    u.settle.events = (s.retireEvents r m).post s.timebase (.writeRefused .retired) r y.port y.spot.record (s.version r y.spot.record) ∧
    u.settle.port y.port = { s.port y.port with
      queue := []
      service := .fresh
      responses := (s.port y.port).responses ++ [⟨worst ((s.port y.port).service.outcomes ++ [.refused]),
        if isRead w then (s.port y.port).service.words else []⟩] } := by
  have taken := h.pool_held only region
  have undone := s.undone_writes r m
  have all := (s.unviewed_writes r).seq undone
  have ports : (s.undone r m).ports = s.ports := undone.ports.trans (State.unviewed_ports need r)
  have port : u.port y.port = { s.port y.port with service := ⟨(s.port y.port).service.next + y.words.length,
      (s.port y.port).service.outcomes ++ [.refused], (s.port y.port).service.words ++ [], none⟩ } := by
    rw [← State.port_congr ports, State.port_congr taken.ports]
    exact State.finishPiece_port_eq ..
  have others : ∀ q, q ≠ y.port → u.canAdvance q = false := fun q ne => by
    refine rest.unneeded_port need ?_
    rw [State.port_congr taken.ports, ← State.port_congr ports]
    exact State.setPort_port_other _ _ ne
  have routed : u.route = u.respond y.port w [] :=
    State.route_responds (by rw [port]; exact queue) (by rw [port]) (by rw [port]; exact whole.ge) others
  have final := u.route.completeLong_writes
  have answered : u.route.port y.port = _ := (congrArg (fun t : State => t.port y.port) routed).trans (u.respond_port y.port w [])
  have version : (s.undone r m).version y.spot.region y.spot.record = s.version r y.spot.record := by
    unfold State.version State.entry
    rw [all.versions, State.definition_congr all.regions, State.setRegionState_definition, region]
    rfl
  refine ⟨?_, ?_, ?_⟩
  · have pool : u.settle.pool = u.pool := final.pool.trans (by rw [routed]; rfl)
    rw [pool, taken.pool, State.refuseHold_holds, s.undone_holds, only, List.erase_cons_head]
  · have events : u.settle.events = u.events := final.events.trans (by rw [routed]; rfl)
    have time : (s.undone r m).timebase = s.timebase := all.timebase
    rw [events, taken.events, ← s.undone_events, ← version, ← time, ← region]
    rfl
  · have same : u.settle.port y.port = u.route.port y.port := State.port_congr final.ports _
    rw [same, answered, port]
    simp only [responseOf, List.append_nil]

end State.Retires

end

end Sys2Proof.Machine

/-! SUPPORT. The piece that waited on a view RETIRE released, formed again as plain (02 R36), and RETIRE's obligation. -/

namespace Sys2Proof.Machine

section
variable {s t u : State} {p q : Port} {r : RegionId} {m : DrainMode} {w : Request}

/-! ### The piece formed again as plain (02 R36) -/

theorem State.spotOf_eq_none {a : Word} : s.spotOf a = none ↔ ∀ q, (s.region q).state = .active → inSpan (s.definition q) a = false := by
  unfold State.spotOf
  rw [List.findSome?_eq_none_iff]
  constructor
  · intro none q active
    have here := none q (mem_allRegions q)
    split at here
    · cases here
    · next out => exact Bool.eq_false_iff.2 fun k => out ⟨active, k⟩
  · intro none q _
    rw [if_neg fun ⟨active, k⟩ => by rw [none q active] at k; cases k]

theorem State.spotOf_inSpan {a : Word} {x : Spot} (h : s.spotOf a = some x) : inSpan (s.definition x.region) a = true := by
  obtain ⟨r, -, e⟩ := List.exists_of_findSome?_eq_some h
  split at e
  · next k => cases e; exact k.2
  · cases e

/-- An address of a region that leaves ACTIVE lies in no ACTIVE region (01 R6, R7). -/
theorem State.RegionsLawful.spotOf_retired (lawful : s.RegionsLawful) (regions : t.regions = (s.setRegionState r .draining).regions)
    {a : Word} {x : Spot} (found : s.spotOf a = some x) (mine : x.region = r) : t.spotOf a = none := by
  have active := State.spotOf_active found
  have spans := State.spotOf_inSpan found
  rw [mine] at active spans
  refine State.spotOf_eq_none.2 fun q k => ?_
  have region : t.region q = (s.setRegionState r .draining).region q := congrArg (fun x => cell x q) regions
  have definition : t.definition q = s.definition q := (State.definition_congr regions q).trans (State.setRegionState_definition ..)
  rw [region, State.setRegionState_state] at k
  by_cases e : q = r
  · rw [if_pos e] at k
    cases k
  · rw [if_neg e] at k
    rw [definition, Bool.eq_false_iff]
    intro other
    unfold inSpan spanBytes at spans other
    simp only [Bool.and_eq_true, decide_eq_true_eq] at spans other
    exact (lawful.apart q r e (by rw [k]; rfl) (by rw [active]; rfl)).1 ⟨a.toNat, other, spans⟩

/-- The rest of a read, handed to the memory as one plain piece. -/
def State.Plainly (p : Port) (x : PortState) (w : Request) (n : Nat) (s : State) : Prop :=
  s.port p = { x with service := { x.service with piece := some ⟨n, none, .memory⟩ } } ∧
    s.mem.plain.get p = some (.read (beatAddress w x.service.next) n)

/-- A port with nothing held forms the rest of its one read, which lies in no ACTIVE region, as one plain piece, whatever the others do. -/
theorem State.plain_route {n : Nat} (none' : u.pool.holds = []) (queue : (u.port p).queue = [w]) (free : (u.port p).service.piece = none)
    (read : isRead w = true) (pos : 1 ≤ n) (whole : (u.port p).service.next + n = w.beats)
    (inside : w.address.toNat + 4 * (w.beats - 1) ≤ 0xFFFFFFFC)
    (plain : ∀ j, j < n → u.spotOf (beatAddress w ((u.port p).service.next + j)) = none) :
    u.route.Plainly p (u.port p) w n := by
  generalize hx : u.port p = x at *
  have ready : ∀ v : State, v.port p = x → v.canAdvance p = true := fun v e =>
    State.canAdvance_ready (r := w) (l := []) (by rw [e]; exact queue) (by rw [e]; exact free)
  have turn : ∀ v : State, v.regions = u.regions → v.port p = x → (v.advance p).Plainly p x w n ∧ (v.advance p).pool = v.pool :=
    fun v regions e => by
      have piece : v.NextPiece w x.service.next n none :=
        { first := by
            have first := plain 0 pos
            rw [Nat.add_zero] at first
            rw [State.spotOf_congr regions, first]
          pos := pos
          fits := whole.le
          same := fun j _ lt => by rw [State.spotOf_congr regions, plain j lt]; rfl
          cut := fun lt => absurd lt (by omega) }
      have handed : v.advance p = v.plainPiece p w x.service.next n none :=
        (piece.advance (l := []) (by rw [e]; exact queue) (by rw [e]) (pastTop_eq_false inside)).trans (v.handPiece_none ..)
      rw [handed]
      refine ⟨⟨?_, ?_⟩, (v.plainPiece_writes p w _ n none).pool⟩
      · rw [← e]
        exact State.awaitPiece_port_eq ..
      · unfold State.plainPiece
        dsimp only
        rw [if_pos read]
        exact PerPort.get_set_same ..
  have alone : u.Unheld p := fun y mem => by
    rw [none'] at mem
    cases mem
  have walk := u.route_moves.keeps (P := fun v => v.regions = u.regions ∧ v.Unheld p ∧ (v.port p = x ∨ v.Plainly p x w n))
    (fun _ _ k => k) (fun v q can ⟨regions, unheld, now⟩ => ?_) ⟨rfl, alone, .inl hx⟩
  · obtain ⟨-, -, stays | done⟩ := walk
    · have still := State.movable_eq_nil.1 (State.route_ends (State.HoldsFit.of_none none')).1 p
      rw [ready _ stays] at still
      cases still
    · exact done
  · refine ⟨(v.advance_outside q).regions.trans regions, ?_⟩
    by_cases e : q = p
    · subst e
      obtain stays | done := now
      · obtain ⟨formed, pool⟩ := turn v regions stays
        exact ⟨by unfold State.Unheld; rw [pool]; exact unheld, .inr formed⟩
      · have waits : v.canAdvance q = false := State.canAdvance_waiting (x := ⟨n, none, .memory⟩) (by rw [done.1]) nofun
        rw [waits] at can
        cases can
    · have spared := (v.advance_spares (Ne.symm e)).spared unheld
      exact ⟨spared.unheld, now.imp (spared.port.trans ·) fun done => ⟨spared.port.trans done.1, spared.plain.trans done.2⟩⟩

/-- The piece that waited on a view of the region is given back (02 R36; 05 R106). -/
theorem State.unviewed_given {n : Nat} {x : Option Spot} {v : ViewIx} (piece : (s.port p).service.piece = some ⟨n, x, .onView v⟩)
    (busy : (s.view p v).state ≠ .free) (region : (s.view p v).region = r) :
    (s.unviewed r).port p = { s.port p with service := { (s.port p).service with piece := none } } := by
  have waits : (s.setRegionState r .draining).WaitsIn p (s.viewsWhere fun _ x => x.region = r) :=
    ⟨_, v, piece, rfl, State.mem_viewsWhere.2 ⟨busy, decide_eq_true region⟩⟩
  have given := State.releaseAll_port_given waits
  refine (State.giveBackAwaiting_port _ r p ?_).trans given
  unfold State.awaitsViewIn
  rw [given]

theorem State.Retires.settle_given {n : Nat} {y : Spot} {v : ViewIx} (h : s.Retires r m u) (lawful : s.RegionsLawful)
    (none' : s.pool.holds = []) (piece : (s.port p).service.piece = some ⟨n, some y, .onView v⟩) (busy : (s.view p v).state ≠ .free)
    (region : (s.view p v).region = r) (queue : (s.port p).queue = [w]) (read : isRead w = true) (pos : 1 ≤ n)
    (whole : (s.port p).service.next + n = w.beats) (inside : w.address.toNat + 4 * (w.beats - 1) ≤ 0xFFFFFFFC) (mine : y.region = r)
    (within : s.RestWithin w (s.port p).service.next y) :
    u.settle.mem.pendingOf (.plain p) = some (.read (beatAddress w (s.port p).service.next) n) ∧
    u.settle.port p = { s.port p with service := { (s.port p).service with piece := some ⟨n, none, .memory⟩ } } := by
  have taken := h.pool_unheld none'
  have port : u.port p = { s.port p with service := { (s.port p).service with piece := none } } :=
    (State.port_congr (taken.ports.trans (s.undone_writes r m).ports) p).trans (State.unviewed_given piece busy region)
  have unheld : u.pool.holds = [] := by rw [taken.pool, s.undone_holds, none']
  obtain ⟨routed, request⟩ := State.plain_route (p := p) (n := n) unheld (by rw [port]; exact queue) (by rw [port]) read pos
    (by rw [port]; exact whole) inside fun j lt => by
      rw [port]
      exact lawful.spotOf_retired h.writes.regions (within j (by omega)) mine
  rw [port] at routed request
  have final := u.route.completeLong_writes
  have same : u.settle.port p = u.route.port p := State.port_congr final.ports p
  have plain : u.settle.mem.plain = u.route.mem.plain := final.plain
  refine ⟨?_, same.trans routed⟩
  show u.settle.mem.plain.get p = _
  rw [plain, request]

end

theorem State.viewsWhere_region (s : State) (r : RegionId) : (s.viewsWhere fun _ x => x.region = r) =
    allPortViews.filter fun pv => (s.view pv.1 pv.2).state ≠ .free ∧ (s.view pv.1 pv.2).region = r := by
  refine List.filter_congr fun pv _ => ?_
  rw [Bool.eq_iff_iff, Bool.and_eq_true, bne_iff_ne, decide_eq_true_eq, decide_eq_true_eq]

/-- Settles O44: RETIRE's work empties the region of views, updates and held writes, and neither the examined held writes nor the routers
bring one back. -/
theorem retireDrainsTheRegion : Obligations.RetireDrainsTheRegion := by
  intro s b mode r rest ready lawful pool owned code active
  refine ⟨fun bad => exec_fails (c := .retire b mode) rest ready (State.retire_badMode code active (modeOfCode_eq_none bad)), fun good => ?_⟩
  obtain ⟨m, named, zero, one⟩ := modeOfCode_eq_some good
  have reply := State.retire_reply code active named
  have row := exec_long (c := .retire b mode) ready reply ((State.examineHolds_writes _).link.trans (s.drained_all r m).link)
  generalize hu : (s.drained r m).examineHolds.takes _ _ = u at row
  have h : s.Retires r m u := ⟨hu ▸ State.setLink_writes .., by rw [← hu]; rfl⟩
  intro gathering views abandoned
  have mem : ∀ c, c ∈ gathering ↔ c ∈ s.gatheringIn r := fun c => by
    rw [pool.mem_gatheringIn owned, List.mem_filter, and_iff_right (mem_allBuffers c), decide_eq_true_eq]
  have counted : s.abandonCount r m = abandoned := by
    show _ = if mode = 0 then gathering.length else 0
    rw [← pool.gatheringIn_length owned r]
    cases m with
    | abandon => rw [if_pos (zero.2 rfl)]; rfl
    | close => rw [if_neg fun e => by cases zero.1 e]; rfl
  have released : (s.viewsWhere fun _ x => x.region = r).length = views.length := by rw [s.viewsWhere_region]
  have link := h.link
  rw [counted, released] at link
  obtain ⟨busy, idle, definition, others⟩ := State.settle_retire_region link
  obtain ⟨none', unviewed⟩ := h.settled pool
  have posted : (if mode = 0 then s.abandonEvents .retire (s.gatheringIn r) else s.events) = s.retireEvents r m := by
    cases m with
    | abandon => exact if_pos (zero.2 rfl)
    | close => exact if_neg fun e => by cases zero.1 e
  refine ⟨u.settle, row, unviewed, h.no_gathering pool owned, none'.no_holds (s.drained_holds r m), fun a x found e => ?_,
    fun k => ?_, idle, ?_, fun q ne => ?_, h.versions, fun close c k => ?_, ⟨fun none need => ?_, fun y w only mine need queue whole => ?_⟩,
    fun p v n y w none piece held mine queue read pos whole inside same within =>
      h.settle_given lawful none piece held mine queue read pos whole inside same within⟩
  · have active := State.spotOf_active found
    rw [e] at active
    cases k : u.settle.regionIdle r with
    | false => rw [(busy k).1, h.draining] at active; cases active
    | true => rw [(idle k).1] at active; cases active
  · obtain ⟨stands, executing⟩ := busy k
    exact ⟨(congrArg Region.state stands).trans h.draining, executing⟩
  · exact definition.trans ((State.definition_congr h.writes.regions r).trans (State.setRegionState_definition ..))
  · exact (others q ne).trans ((h.region q).trans ((s.setRegion_region r q _).trans (if_neg ne)))
  · obtain rfl := one.1 close
    exact h.closed pool ((mem c).1 k)
  · obtain ⟨events, ports, pool'⟩ := h.settle_unneeded rest none need
    have buffer := State.buffer_congr pool'
    refine ⟨events.trans posted.symm, ports, fun abandons => ?_, fun closes => ?_⟩
    · obtain rfl := zero.1 abandons
      refine ⟨fun c k => ?_, ?_⟩
      · rw [buffer]
        exact (s.undone_buffer r ((mem c).1 k)).1
      · rw [pool']
        exact (s.undone_closeOrder r).1
    · obtain rfl := one.1 closes
      rw [pool']
      exact (s.undone_closeOrder r).2
  · obtain ⟨holds, events, port⟩ := h.settle_refused rest only mine need queue whole
    exact ⟨holds, events.trans (congrArg (fun e : EventUnit => e.post ..) posted.symm), port⟩

end Sys2Proof.Machine
